-- ==== Sys2Proof/Word.lean ====
section
/-! DEFINITION. The words of the block and its plainest arithmetic (00_scope.md R11).

A byte and an operation word are bit vectors because the spec slices them; counts, lengths and
nanoseconds are naturals. -/

namespace Sys2Proof

/-- A byte, 0 to 255 (00_scope.md R11). -/
abbrev Byte := BitVec 8

/-- A request tag (00_scope.md R9: tag width 8 bits). -/
abbrev Tag := BitVec 8

/-- An operation word or a payload word (30_encoding.md R90, R93). -/
abbrev Word := BitVec 32

/-- `ceil_div(a, b)`: for `b >= 1` the least `q` with `q * b >= a` (00_scope.md R11). -/
def ceilDiv (a b : Nat) : Nat := (a + b - 1) / b

end Sys2Proof
end

