-- ==== Sys2Proof/Machine/Digest.lean ====
section
/-! DEFINITION. The checksums as pure functions (40_checksum.md R120, R125). The engines and the
transceivers both use them; the transceivers never touch the engines' state (R135). -/

namespace Sys2Proof.Machine

/-- One shift of the CRC step: right by one, and XOR with 0xA001 when the bit shifted out is 1
(R120). -/
def crcShift (c : BitVec 16) : BitVec 16 :=
  if c.getLsbD 0 then (c >>> 1) ^^^ 0xA001#16 else c >>> 1

/-- `crc_step(c, b)`: XOR the byte in, then eight shifts (R120). -/
def crcStep (c : BitVec 16) (b : Byte) : BitVec 16 := crcShift^[8] (c ^^^ b.setWidth 16)

/-- The accumulator a fresh digest starts from (R120, R122). -/
def crcInitial : BitVec 16 := 0xFFFF#16

/-- `crc16(s)` (R120). -/
def crc16 (s : List Byte) : BitVec 16 := s.foldl crcStep crcInitial

/-- `crc[7:0]`, sent first (20_memory.md R62). -/
def crcLow (c : BitVec 16) : Byte := c.extractLsb' 0 8

/-- `crc[15:8]`, sent second (20_memory.md R62). -/
def crcHigh (c : BitVec 16) : Byte := c.extractLsb' 8 8

/-- One byte into the running sum, modulo 256 (R131). -/
def lrcStep (sum b : Byte) : Byte := sum + b

/-- The sum of the bytes modulo 256. -/
def byteSum (s : List Byte) : Byte := s.foldl lrcStep 0

/-- The digest of a running sum, `(256 - sum) mod 256` (R125, R132). -/
def lrcOfSum (sum : Byte) : Byte := BitVec.ofNat 8 ((256 - sum.toNat) % 256)

/-- `lrc8(s)` (R125). -/
def lrc8 (s : List Byte) : Byte := lrcOfSum (byteSum s)

end Sys2Proof.Machine
end

