-- ==== Sys2Proof/Syntax.lean ====
section
/-! DEFINITION. The operations of the block, one constructor per row of the opcode table
(30_encoding.md R92). -/

namespace Sys2Proof

/-- The kind of a frame (10_state.md R20), the `K` bit of a submission (30_encoding.md R90). -/
inductive FrameKind
  | rtu
  | ascii
  deriving DecidableEq, Repr

/-- The counters RTU.CNR and RTU.CNZ select (30_encoding.md R104): 0 message, 1 communication
error, 2 character overrun. -/
inductive CounterSelect
  | msg
  | err
  | ovr
  deriving DecidableEq, Repr

/-- The 26 operations (30_encoding.md R92), each with its operands (R90, R93). -/
inductive Instr
  /-- CRC.INIT, OP 0x00 (40_checksum.md R122). -/
  | crcInit
  /-- CRC.UPD B, OP 0x01 (R123). -/
  | crcUpd (b : Byte)
  /-- CRC.READ, OP 0x02 (R124). -/
  | crcRead
  /-- LRC.INIT, OP 0x10 (R130). -/
  | lrcInit
  /-- LRC.UPD B, OP 0x11 (R131). -/
  | lrcUpd (b : Byte)
  /-- LRC.READ, OP 0x12 (R132). -/
  | lrcRead
  /-- RTU.RXC B, V, O, OP 0x20 (41_rtu_receiver.md R172). -/
  | rtuRxc (b : Byte) (valid overrun : Bool)
  /-- RTU.T15, OP 0x21 (R180). -/
  | rtuT15
  /-- RTU.T35, OP 0x22 (R181). -/
  | rtuT35
  /-- RTU.TXS T, K, N, payload, OP 0x23 (43_transceiver.md R260). `N` is the length of `data`. -/
  | rtuTxs (t : Tag) (k : FrameKind) (address functionCode : Byte) (data : List Byte)
  /-- RTU.TXD F, OP 0x24 (R270). -/
  | rtuTxd (failed : Bool)
  /-- RTU.CNR C, OP 0x25 (R290). -/
  | rtuCnr (c : CounterSelect)
  /-- RTU.CNZ C, OP 0x26 (R291). -/
  | rtuCnz (c : CounterSelect)
  /-- RTU.CLS X, OP 0x27 (R280). -/
  | rtuCls (forcibly : Bool)
  /-- RTU.CXL T, OP 0x28 (R275). -/
  | rtuCxl (t : Tag)
  /-- RTU.STAT, OP 0x29 (R286). -/
  | rtuStat
  /-- RTU.WAIT T, OP 0x2A (R287). -/
  | rtuWait (t : Tag)
  /-- RTU.STEP, OP 0x2B (41_rtu_receiver.md R178). -/
  | rtuStep
  /-- ASC.RXC B, V, OP 0x30 (42_ascii_receiver.md R222). -/
  | ascRxc (b : Byte) (valid : Bool)
  /-- ASC.TXS T, K, N, payload, OP 0x33 (43_transceiver.md R260). -/
  | ascTxs (t : Tag) (k : FrameKind) (address functionCode : Byte) (data : List Byte)
  /-- ASC.TXD F, OP 0x34 (R271). -/
  | ascTxd (failed : Bool)
  /-- ASC.CLS X, OP 0x37 (R281). -/
  | ascCls (forcibly : Bool)
  /-- ASC.CXL T, OP 0x38 (R275). -/
  | ascCxl (t : Tag)
  /-- ASC.STAT, OP 0x39 (R286). -/
  | ascStat
  /-- ASC.WAIT T, OP 0x3A (R287). -/
  | ascWait (t : Tag)
  /-- ASC.STEP, OP 0x3B (R269). -/
  | ascStep
  deriving DecidableEq, Repr

end Sys2Proof
end

