-- ==== Sys2Proof/WellFormed.lean ====
section
/-! DEFINITION. Which operations the encoding can spell: the data length `N` of a submission is one
byte (30_encoding.md R90, R96). Every other operand is of a type that holds nothing else. -/

namespace Sys2Proof

/-- The operation has an encoding. A submission carries 0 to 255 data bytes; 253 to 255 are
encodable and complete with FRAME_CONSTRUCTION (30_encoding.md R93). -/
def Instr.wf : Instr → Bool
  | .rtuTxs _ _ _ _ data | .ascTxs _ _ _ _ data => decide (data.length ≤ 255)
  | .crcInit | .crcUpd _ | .crcRead | .lrcInit | .lrcUpd _ | .lrcRead
  | .rtuRxc _ _ _ | .rtuT15 | .rtuT35 | .rtuTxd _ | .rtuCnr _ | .rtuCnz _ | .rtuCls _ | .rtuCxl _
  | .rtuStat | .rtuWait _ | .rtuStep
  | .ascRxc _ _ | .ascTxd _ | .ascCls _ | .ascCxl _ | .ascStat | .ascWait _ | .ascStep => true

end Sys2Proof
end

