-- ==== Sys2Proof/Decode.lean ====
section
/-! DEFINITION. The decoder of operation words and, after it, the encoder (30_encoding.md, part B).

The decoder takes the words of a stream and answers the first operation with the words after it, or
rejects by name. The encoder is written from the same tables. -/

namespace Sys2Proof

/-- Why a stream of words does not begin with an operation. -/
inductive Reject
  /-- The stream ends before the operation does. -/
  | truncated
  /-- The OP byte is not in the opcode map (30_encoding.md R97). -/
  | unassignedOp
  /-- A reserved bit is set, or an unused payload byte is not zero (R98). -/
  | reservedBits
  /-- The counter select is 3 to 255 (R104). -/
  | reservedCounter
  deriving DecidableEq, Repr

/-- The fields of an operation word (30_encoding.md R90); `r1` is [15:13], `r2` is [11:10]. -/
structure Fields where
  op : Byte
  t  : Tag := 0
  r1 : BitVec 3 := 0
  k  : Bool := false
  r2 : BitVec 2 := 0
  o  : Bool := false
  v  : Bool := false
  b  : Byte := 0
  deriving DecidableEq, Repr

/-- Cut a word into its fields (R90). -/
def Fields.ofWord (w : Word) : Fields where
  op := w.extractLsb' 24 8
  t  := w.extractLsb' 16 8
  r1 := w.extractLsb' 13 3
  k  := w.getLsbD 12
  r2 := w.extractLsb' 10 2
  o  := w.getLsbD 9
  v  := w.getLsbD 8
  b  := w.extractLsb' 0 8

/-- Put the fields together, bit 31 first (R90). -/
def Fields.toWord (f : Fields) : Word :=
  f.op ++ f.t ++ f.r1 ++ BitVec.ofBool f.k ++ f.r2 ++ BitVec.ofBool f.o ++ BitVec.ofBool f.v ++ f.b

/-- The formats of operation words (30_encoding.md R91). -/
inductive Format
  | z
  | ub
  | rr
  | ra
  | fl
  | tg
  | sb
  | cs
  deriving DecidableEq, Repr

/-- Every bit that is 0 in the format's pattern is 0 (R91, R98). -/
def Format.reservedClear (fmt : Format) (f : Fields) : Bool :=
  f.r1 == 0 && f.r2 == 0 &&
    match fmt with
    | .z  => f.t == 0 && !f.k && !f.o && !f.v && f.b == 0
    | .ub => f.t == 0 && !f.k && !f.o && !f.v
    | .rr => f.t == 0 && !f.k
    | .ra => f.t == 0 && !f.k && !f.o
    | .fl => f.t == 0 && !f.k && !f.o && f.b == 0
    | .tg => !f.k && !f.o && !f.v && f.b == 0
    | .sb => !f.o && !f.v
    | .cs => f.t == 0 && !f.k && !f.o && !f.v

/-- The format of an OP value; none for an unassigned one (30_encoding.md R92, R97). -/
def formatOf (op : Byte) : Option Format :=
  match op.toNat with
  | 0x00 | 0x02 | 0x10 | 0x12 => some .z
  | 0x21 | 0x22 | 0x29 | 0x2B => some .z
  | 0x39 | 0x3B => some .z
  | 0x01 | 0x11 => some .ub
  | 0x20 => some .rr
  | 0x30 => some .ra
  | 0x24 | 0x27 | 0x34 | 0x37 => some .fl
  | 0x28 | 0x2A | 0x38 | 0x3A => some .tg
  | 0x23 | 0x33 => some .sb
  | 0x25 | 0x26 => some .cs
  | _ => none

/-- The counter a select value names (R104). -/
def counterOf (c : Byte) : Option CounterSelect :=
  match c.toNat with
  | 0 => some .msg
  | 1 => some .err
  | 2 => some .ovr
  | _ => none

/-- The `K` bit: 0 an RTU frame, 1 an ASCII frame (R90). -/
def kindOf (k : Bool) : FrameKind := if k then .ascii else .rtu

/-- The payload bytes of one word: byte `i` is bits [8i+7 : 8i] (30_encoding.md R93). -/
def wordBytes (w : Word) : List Byte :=
  [w.extractLsb' 0 8, w.extractLsb' 8 8, w.extractLsb' 16 8, w.extractLsb' 24 8]

/-- Take the `n` payload bytes at the head of the stream: `ceil_div(n, 4)` words, whose unused high
bytes must be 0 (R93, R98). -/
def takePayload (n : Nat) (ws : List Word) : Except Reject (List Byte × List Word) :=
  let m := ceilDiv n 4
  if ws.length < m then .error .truncated
  else
    let bytes := (ws.take m).flatMap wordBytes
    if (bytes.drop n).all (· == 0) then .ok (bytes.take n, ws.drop m) else .error .reservedBits

/-- A submission: address, function code and `N` data bytes after the head word (R93). -/
def takeSubmission (make : Tag → FrameKind → Byte → Byte → List Byte → Instr) (f : Fields)
    (ws : List Word) : Except Reject (Instr × List Word) :=
  match takePayload (f.b.toNat + 2) ws with
  | .ok (address :: functionCode :: data, rest) =>
    .ok (make f.t (kindOf f.k) address functionCode data, rest)
  | .ok (_, _) => .error .truncated
  | .error r => .error r

/-- A counter operation (R104). -/
def takeCounter (make : CounterSelect → Instr) (f : Fields) (ws : List Word) :
    Except Reject (Instr × List Word) :=
  match counterOf f.b with
  | some c => .ok (make c, ws)
  | none => .error .reservedCounter

/-- The operation of a head word whose reserved bits are clear, by the opcode map (R92). -/
def decodeFields (f : Fields) (ws : List Word) : Except Reject (Instr × List Word) :=
  match f.op.toNat with
  | 0x00 => .ok (.crcInit, ws)
  | 0x01 => .ok (.crcUpd f.b, ws)
  | 0x02 => .ok (.crcRead, ws)
  | 0x10 => .ok (.lrcInit, ws)
  | 0x11 => .ok (.lrcUpd f.b, ws)
  | 0x12 => .ok (.lrcRead, ws)
  | 0x20 => .ok (.rtuRxc f.b f.v f.o, ws)
  | 0x21 => .ok (.rtuT15, ws)
  | 0x22 => .ok (.rtuT35, ws)
  | 0x23 => takeSubmission .rtuTxs f ws
  | 0x24 => .ok (.rtuTxd f.v, ws)
  | 0x25 => takeCounter .rtuCnr f ws
  | 0x26 => takeCounter .rtuCnz f ws
  | 0x27 => .ok (.rtuCls f.v, ws)
  | 0x28 => .ok (.rtuCxl f.t, ws)
  | 0x29 => .ok (.rtuStat, ws)
  | 0x2A => .ok (.rtuWait f.t, ws)
  | 0x2B => .ok (.rtuStep, ws)
  | 0x30 => .ok (.ascRxc f.b f.v, ws)
  | 0x33 => takeSubmission .ascTxs f ws
  | 0x34 => .ok (.ascTxd f.v, ws)
  | 0x37 => .ok (.ascCls f.v, ws)
  | 0x38 => .ok (.ascCxl f.t, ws)
  | 0x39 => .ok (.ascStat, ws)
  | 0x3A => .ok (.ascWait f.t, ws)
  | 0x3B => .ok (.ascStep, ws)
  | _ => .error .unassignedOp

/-- The first operation of a stream of words and the words after it, or why there is none
(R94, R97, R98, R104). -/
def decode : List Word → Except Reject (Instr × List Word)
  | [] => .error .truncated
  | w :: ws =>
    let f := Fields.ofWord w
    match formatOf f.op with
    | none => .error .unassignedOp
    | some fmt => if fmt.reservedClear f then decodeFields f ws else .error .reservedBits

/-- How many words an operation has, from its head word alone (30_encoding.md R94). -/
def opLength (w : Word) : Nat :=
  let f := Fields.ofWord w
  if f.op = 0x23 ∨ f.op = 0x33 then 1 + ceilDiv (f.b.toNat + 2) 4 else 1

/-- The most words an operation has: a submission with N = 255 (R94). -/
def maxOpLength : Nat := 1 + ceilDiv 257 4

/-! ### The encoder -/

/-- The `K` bit of a frame kind (R90). -/
def kindBit : FrameKind → Bool
  | .rtu => false
  | .ascii => true

/-- The select value of a counter (R104). -/
def counterNumber : CounterSelect → Byte
  | .msg => 0
  | .err => 1
  | .ovr => 2

/-- Payload bytes packed four to a word, byte 0 lowest, the unused high bytes 0 (R93). -/
def packPayload : List Byte → List Word
  | [] => []
  | [a] => [(0 : Byte) ++ (0 : Byte) ++ (0 : Byte) ++ a]
  | [a, b] => [(0 : Byte) ++ (0 : Byte) ++ b ++ a]
  | [a, b, c] => [(0 : Byte) ++ c ++ b ++ a]
  | a :: b :: c :: d :: rest => (d ++ c ++ b ++ a) :: packPayload rest

/-- A submission's words: the head word, then the payload (R91 format SB, R93). -/
def encodeSubmission (op : Byte) (t : Tag) (k : FrameKind) (address functionCode : Byte)
    (data : List Byte) : List Word :=
  Fields.toWord { op := op, t := t, k := kindBit k, b := BitVec.ofNat 8 data.length }
    :: packPayload (address :: functionCode :: data)

/-- The words of an operation (R91 to R93). -/
def encode : Instr → List Word
  | .crcInit => [Fields.toWord { op := 0x00 }]
  | .crcUpd b => [Fields.toWord { op := 0x01, b := b }]
  | .crcRead => [Fields.toWord { op := 0x02 }]
  | .lrcInit => [Fields.toWord { op := 0x10 }]
  | .lrcUpd b => [Fields.toWord { op := 0x11, b := b }]
  | .lrcRead => [Fields.toWord { op := 0x12 }]
  | .rtuRxc b valid overrun => [Fields.toWord { op := 0x20, o := overrun, v := valid, b := b }]
  | .rtuT15 => [Fields.toWord { op := 0x21 }]
  | .rtuT35 => [Fields.toWord { op := 0x22 }]
  | .rtuTxs t k address functionCode data => encodeSubmission 0x23 t k address functionCode data
  | .rtuTxd failed => [Fields.toWord { op := 0x24, v := failed }]
  | .rtuCnr c => [Fields.toWord { op := 0x25, b := counterNumber c }]
  | .rtuCnz c => [Fields.toWord { op := 0x26, b := counterNumber c }]
  | .rtuCls forcibly => [Fields.toWord { op := 0x27, v := forcibly }]
  | .rtuCxl t => [Fields.toWord { op := 0x28, t := t }]
  | .rtuStat => [Fields.toWord { op := 0x29 }]
  | .rtuWait t => [Fields.toWord { op := 0x2A, t := t }]
  | .rtuStep => [Fields.toWord { op := 0x2B }]
  | .ascRxc b valid => [Fields.toWord { op := 0x30, v := valid, b := b }]
  | .ascTxs t k address functionCode data => encodeSubmission 0x33 t k address functionCode data
  | .ascTxd failed => [Fields.toWord { op := 0x34, v := failed }]
  | .ascCls forcibly => [Fields.toWord { op := 0x37, v := forcibly }]
  | .ascCxl t => [Fields.toWord { op := 0x38, t := t }]
  | .ascStat => [Fields.toWord { op := 0x39 }]
  | .ascWait t => [Fields.toWord { op := 0x3A, t := t }]
  | .ascStep => [Fields.toWord { op := 0x3B }]

/-! ### The opcode table as masks

Written from the pattern column of spec/opcode_table.json, apart from the decoder, so that a
statement can hold one against the other. -/

/-- One row: a word is the row's exactly when its masked bits are the pattern's. -/
structure OpcodeRow where
  pattern : Word
  mask    : Word
  deriving DecidableEq, Repr

/-- The rows of the checksum engines. -/
def checksumRows : List OpcodeRow :=
  [⟨0x00000000, 0xFFFFFFFF⟩, ⟨0x01000000, 0xFFFFFF00⟩, ⟨0x02000000, 0xFFFFFFFF⟩,
   ⟨0x10000000, 0xFFFFFFFF⟩, ⟨0x11000000, 0xFFFFFF00⟩, ⟨0x12000000, 0xFFFFFFFF⟩]

/-- The rows of the RTU transceiver. -/
def rtuRows : List OpcodeRow :=
  [⟨0x20000000, 0xFFFFFC00⟩, ⟨0x21000000, 0xFFFFFFFF⟩, ⟨0x22000000, 0xFFFFFFFF⟩,
   ⟨0x23000000, 0xFF00EF00⟩, ⟨0x24000000, 0xFFFFFEFF⟩, ⟨0x25000000, 0xFFFFFF00⟩,
   ⟨0x26000000, 0xFFFFFF00⟩, ⟨0x27000000, 0xFFFFFEFF⟩, ⟨0x28000000, 0xFF00FFFF⟩,
   ⟨0x29000000, 0xFFFFFFFF⟩, ⟨0x2A000000, 0xFF00FFFF⟩, ⟨0x2B000000, 0xFFFFFFFF⟩]

/-- The rows of the ASCII transceiver. -/
def asciiRows : List OpcodeRow :=
  [⟨0x30000000, 0xFFFFFE00⟩, ⟨0x33000000, 0xFF00EF00⟩, ⟨0x34000000, 0xFFFFFEFF⟩,
   ⟨0x37000000, 0xFFFFFEFF⟩, ⟨0x38000000, 0xFF00FFFF⟩, ⟨0x39000000, 0xFFFFFFFF⟩,
   ⟨0x3A000000, 0xFF00FFFF⟩, ⟨0x3B000000, 0xFFFFFFFF⟩]

/-- The whole opcode table. -/
def opcodeTable : List OpcodeRow := checksumRows ++ rtuRows ++ asciiRows

/-- The OP byte of a row (R90). -/
def OpcodeRow.op (r : OpcodeRow) : Byte := r.pattern.extractLsb' 24 8

/-- The word has the row's pattern in the row's fixed bits. -/
def OpcodeRow.fits (r : OpcodeRow) (w : Word) : Bool := w &&& r.mask == r.pattern

/-! ### The host's numbering of a row's bits -/

/-- The words of an instruction whose first `nbits` bits are those of `w`, bit 0 the least significant
of the first word; every bit above is 0. -/
def tableWords (nbits w : Nat) : List Word :=
  (List.range maxOpLength).map fun i => BitVec.ofNat 32 (w % 2 ^ nbits / 2 ^ (32 * i))

/-- The instruction the decoder reads from those words; none where it rejects them. -/
def decodeTableWord (nbits w : Nat) : Option Instr :=
  match decode (tableWords nbits w) with
  | .ok (i, _) => some i
  | .error _ => none

end Sys2Proof
end

