-- ==== Sys2Proof/Config.lean ====
section
/-! DEFINITION. What a unit is constructed with (00_scope.md R7), the parameters the spec leaves
open (R9), and the free values of the draws (R10). -/

namespace Sys2Proof

/-- Parity type (00_scope.md R7). -/
inductive Parity
  | none
  | odd
  | even
  deriving DecidableEq, Repr

/-- The configuration of a transceiver, `RTU.cfg` and `ASC.cfg` (10_state.md R24, R39). `path` has no
effect on the block (00_scope.md R7) and is not held. -/
structure LineConfig where
  baud     : Nat
  dataBits : Nat
  parity   : Parity
  stopBits : Nat
  scale    : Nat
  deriving DecidableEq, Repr

/-- What the host asks for at construction, before it is checked (60_exceptions.md R322).
`parity` is `none` where the request names no parity type, `scale` is `none` where it is no natural
number. -/
structure ConfigRequest where
  baud     : Nat
  dataBits : Nat
  parity   : Option Parity
  stopBits : Nat
  scale    : Option Nat
  deriving DecidableEq, Repr

/-- The five parameters the spec leaves OPEN (00_scope.md R9; 92_eei_decisions.md, "Open
parameters"): named model arguments, held in State, written by no operation. -/
structure Params where
  /-- `OVERFLOW_COUNTS_AS_OVERRUN` (D11). -/
  overflowCountsAsOverrun : Bool
  /-- `ASCII_RX_CAP`, at least 513 (D26). -/
  asciiRxCap : Nat
  /-- `ASCII_STRIP_EXTRA_CR` (D27). -/
  asciiStripExtraCr : Bool
  /-- `ASCII_ACCEPT_LOWERCASE` (D46). -/
  asciiAcceptLowercase : Bool
  /-- `TIMER_SLACK`, 0 to hct nanoseconds (D7). -/
  timerSlack : Nat
  deriving DecidableEq, Repr

/-- The two readings of the RTU rules (41_rtu_receiver.md, section 3): the untimed layer admits any
order of operations, the timed layer only those the timers allow. -/
inductive Layer
  | untimed
  | timed
  deriving DecidableEq, Repr

/-- FREE VALUE. The draw of REFILL (43_transceiver.md R264), as a function of the transceiver, named by
its kind, and the number of draws it has made: the draws of the two transceivers are unrelated.
DESIGN CHOICE (log 10): nothing constrains it. -/
opaque Config.freeDraw : FrameKind → Nat → Nat

/-- FREE VALUE. How many bytes of an aborted write reached the line (43_transceiver.md R277), as a
function of the transceiver, named by its kind, and the number of draws it has made: the prefixes of
the two transceivers are unrelated. DESIGN CHOICE (log 11): nothing constrains it. -/
opaque Config.freePrefixLength : FrameKind → Nat → Nat

end Sys2Proof
end

