-- ==== Sys2Proof/Machine/CharTime.lean ====
section
/-! DEFINITION. The durations of the RTU timers (41_rtu_receiver.md R160 to R162) and the check of a
configuration (00_scope.md R7, 60_exceptions.md R322). All times are nanoseconds. -/

namespace Sys2Proof.Machine

/-- `parityBits`: 0 for none, 1 otherwise (R160). -/
def parityBits : Parity → Nat
  | .none => 0
  | .odd | .even => 1

/-- Bits of one character on the line: a start bit, the data, parity and stop bits (R160). -/
def charBits (c : LineConfig) : Nat := 1 + c.dataBits + parityBits c.parity + c.stopBits

/-- `ct`, the character time, rounded up (R160). -/
def charTime (c : LineConfig) : Nat := ceilDiv (1000000000 * charBits c) c.baud

/-- `hct`, the timer base: scaled, then floored at 250 µs (R161). -/
def hct (c : LineConfig) : Nat := max 250000 (c.scale * charTime c)

/-- `t15`, 1.5 × hct rounded up (R162). -/
def t15 (c : LineConfig) : Nat := ceilDiv (3 * hct c) 2

/-- `t35`, 3.5 × hct rounded up (R162). -/
def t35 (c : LineConfig) : Nat := ceilDiv (7 * hct c) 2

/-- The configuration is in the domains of 00_scope.md R7. -/
def configValid (c : LineConfig) : Bool :=
  decide (1 ≤ c.baud) && (c.dataBits == 7 || c.dataBits == 8) &&
    (c.stopBits == 1 || c.stopBits == 2) && decide (1 ≤ c.scale) && decide (c.scale ≤ 512)

/-- The configuration a request asks for, if every field is in its domain (R7, R322). -/
def checkedConfig (q : ConfigRequest) : Option LineConfig :=
  match q.parity, q.scale with
  | some parity, some scale =>
    let c : LineConfig := ⟨q.baud, q.dataBits, parity, q.stopBits, scale⟩
    if configValid c then some c else none
  | _, _ => none

/-- The open parameters are in their domains, for a unit with configuration `c`
(92_eei_decisions.md, "Open parameters"). -/
def paramsValid (c : LineConfig) (p : Params) : Bool :=
  decide (513 ≤ p.asciiRxCap) && decide (p.timerSlack ≤ hct c)

end Sys2Proof.Machine
end

