-- ==== Sys2Proof/Machine/State.lean ====
section
/-! DEFINITION. The state of the block (10_state.md), as plain data, and its reset value
(70_reset_and_hazards.md R351). The block has no addressable memory (20_memory.md R60). -/

namespace Sys2Proof.Machine

/-- A frame value (10_state.md R20). -/
structure Frame where
  kind         : FrameKind
  address      : Byte
  functionCode : Byte
  data         : List Byte
  deriving DecidableEq, Repr

/-- Completion codes (60_exceptions.md R320). -/
inductive CompletionCode
  | ok
  | invalidOperation
  | invalidFrame
  | deviceError
  | operationCancelled
  | frameConstruction
  | configurationError
  deriving DecidableEq, Repr

/-- Output events (10_state.md R48). -/
inductive Event
  /-- `VALUE(v)`: the number a read operation returns. -/
  | value (v : Nat)
  /-- `RESULT(t, code)`: the completion of the request with tag `t`. -/
  | result (t : Tag) (code : CompletionCode)
  /-- `FRAME(f)`: a validated inbound frame. -/
  | frame (f : Frame)
  /-- `PORT_TX(bytes)`: a write handed to the port. -/
  | portTx (bytes : List Byte)
  /-- `PORT_TX_ABORT`: the write in flight is cancelled. -/
  | portTxAbort
  /-- `PORT_OVR_ACK`: the port's overrun indication is reset. -/
  | portOvrAck
  /-- `PORT_DISPOSE`: the port is disposed. -/
  | portDispose
  deriving DecidableEq, Repr

/-- The lifecycle of a transceiver (10_state.md R25, R40). `opened` is the spec's OPEN. -/
inductive Life
  | opened
  | closing
  | closed
  deriving DecidableEq, Repr

/-- The occupied transmit register (10_state.md R34). -/
structure TxSlot where
  tag     : Tag
  frame   : Frame
  started : Bool
  deriving DecidableEq, Repr

/-- A submission waiting for the slot (10_state.md R35). -/
structure Submission where
  tag   : Tag
  frame : Frame
  deriving DecidableEq, Repr

/-- What the two transceivers have alike (10_state.md R25, R34 to R36, R38, R40, R44, R48). -/
structure Channel where
  /-- `life`. -/
  life : Life
  /-- `txreg`, the one-slot transmit register. -/
  txreg : Option TxSlot
  /-- `hold`: a set, kept ascending by tag (log 14). -/
  hold : List Submission
  /-- `waiters`: a set, kept ascending (log 14). -/
  waiters : List Tag
  /-- `disposed`. -/
  disposed : Bool
  /-- The output trace, oldest event first. -/
  out : List Event
  /-- The MODEL's own field: how many draws the unit has made (log 10). -/
  draws : Nat
  /-- The MODEL's own field: of each aborted write, the prefix that reached the line (log 11). -/
  linePrefixes : List (List Byte)
  deriving DecidableEq, Repr

/-- The CRC-16 engine (10_state.md R22, R48). -/
structure CrcUnit where
  acc : BitVec 16
  out : List Event
  deriving DecidableEq, Repr

/-- The LRC-8 engine (10_state.md R23, R48). -/
structure LrcUnit where
  sum : Byte
  out : List Event
  deriving DecidableEq, Repr

/-- `RTU.st` (10_state.md R26). -/
inductive RtuState
  | init
  | idle
  | emission
  | reception
  | ctrlwait
  deriving DecidableEq, Repr

/-- `RTU.eph` (10_state.md R27). -/
inductive EmissionPhase
  | tx
  | settle
  deriving DecidableEq, Repr

/-- The RTU transceiver (10_state.md R24 to R38). -/
structure RtuUnit where
  cfg    : LineConfig
  ch     : Channel
  st     : RtuState
  eph    : EmissionPhase
  buf    : List Byte
  nok    : Bool
  ovr    : Bool
  ovf    : Bool
  arm15  : Bool
  arm35  : Bool
  /-- Deadlines, nanoseconds on the unit's time axis (10_state.md R33). -/
  d15    : Nat
  d35    : Nat
  cntMsg : BitVec 64
  cntErr : BitVec 64
  cntOvr : BitVec 64
  /-- `τ`, the timestamp of the operation being taken (41_rtu_receiver.md R190). -/
  now    : Nat
  deriving DecidableEq, Repr

/-- `ASC.ast` (10_state.md R41). -/
inductive AscState
  | idle
  | append
  | eof
  deriving DecidableEq, Repr

/-- The ASCII transceiver (10_state.md R39 to R44). -/
structure AscUnit where
  cfg  : LineConfig
  ch   : Channel
  ast  : AscState
  abuf : List Byte
  anok : Bool
  deriving DecidableEq, Repr

/-- A word of the operation stream with the timestamp of its input (41_rtu_receiver.md R190). -/
structure StreamWord where
  stamp : Nat
  word  : Word
  deriving DecidableEq, Repr

/-- The whole machine: one unit of each kind (log 1), the words the environment has delivered and no
unit has taken yet (10_state.md R49; log 2), and the model arguments (00_scope.md R9). -/
structure State where
  crc    : CrcUnit
  lrc    : LrcUnit
  rtu    : RtuUnit
  asc    : AscUnit
  stream : List StreamWord
  params : Params
  layer  : Layer
  deriving DecidableEq, Repr

/-- The faults. -/
inductive Fault
  /-- Raised by ASC.STEP when the encoding of the queued frame does not fit the send buffer
  (30_encoding.md R88: "a model that reaches it anyway must fault, not truncate"). Safe: no frame
  value of 10_state.md R20 is that long. -/
  | asciiSendOverflow
  deriving DecidableEq, Repr

/-- The refusals: inputs outside the hardware's domain (60_exceptions.md R328). -/
inductive Refusal
  /-- No meaning written yet for this instruction. Raised by exec's arm only. Safe. -/
  | notModelled (mnemonic : String)
  /-- The stream does not begin with an operation (30_encoding.md R97, R98, R104; log 15). Raised by
  step. Safe. -/
  | undecodable (r : Reject)
  /-- A TXS or WAIT with the tag of an outstanding request (30_encoding.md R95). Raised by the four
  submitting operations. Safe. -/
  | tagReuse
  /-- Timed layer: the timestamp is before an earlier operation's (41_rtu_receiver.md R190). Raised by
  step. Safe. -/
  | timeReversed
  /-- Timed layer: an armed timer has not fired in its window (41_rtu_receiver.md R192). Raised by
  step. Safe. -/
  | timerOverdue
  /-- The port completes a write it was not given, or an aborted one (43_transceiver.md R272; log 12).
  Raised by step. Safe. -/
  | portDuty
  deriving DecidableEq, Repr

/-- The outcome of one operation. -/
abbrev Result := Host.Outcome State Fault Refusal

/-! ### Reset: construction of the units (70_reset_and_hazards.md R350, R351) -/

/-- The transceiver parts after construction. -/
def Channel.reset : Channel where
  life := .opened
  txreg := none
  hold := []
  waiters := []
  disposed := false
  out := []
  draws := 0
  linePrefixes := []

/-- A CRC engine after construction. -/
def CrcUnit.reset : CrcUnit := ⟨0xFFFF, []⟩

/-- An LRC engine after construction. -/
def LrcUnit.reset : LrcUnit := ⟨0, []⟩

/-- An RTU transceiver after construction with configuration `c`. `d15` is unspecified (R33): 0 is a
DESIGN CHOICE (log 6). -/
def RtuUnit.reset (c : LineConfig) : RtuUnit where
  cfg := c
  ch := Channel.reset
  st := .init
  eph := .tx
  buf := []
  nok := false
  ovr := false
  ovf := false
  arm15 := false
  arm35 := true
  d15 := 0
  d35 := t35 c
  cntMsg := 0
  cntErr := 0
  cntOvr := 0
  now := 0

/-- An ASCII transceiver after construction with configuration `c`. -/
def AscUnit.reset (c : LineConfig) : AscUnit where
  cfg := c
  ch := Channel.reset
  ast := .idle
  abuf := []
  anok := false

/-- Construction of an RTU transceiver; an invalid configuration gives CONFIGURATION_ERROR and no
unit (60_exceptions.md R322). -/
def RtuUnit.construct (q : ConfigRequest) : Except CompletionCode RtuUnit :=
  match checkedConfig q with
  | some c => .ok (RtuUnit.reset c)
  | none => .error .configurationError

/-- Construction of an ASCII transceiver (60_exceptions.md R322). -/
def AscUnit.construct (q : ConfigRequest) : Except CompletionCode AscUnit :=
  match checkedConfig q with
  | some c => .ok (AscUnit.reset c)
  | none => .error .configurationError

/-- The construction argument State.reset takes: 9600 baud 8N1, scale 1. DESIGN CHOICE (log 4). -/
def LineConfig.resetChoice : LineConfig := ⟨9600, 8, .none, 1, 1⟩

/-- The defaults of the open parameters (92_eei_decisions.md, "Open parameters"; log 5). -/
def Params.default : Params := ⟨false, 513, false, false, 0⟩

/-- The machine right after construction of its four units (R351), in the untimed layer (log 7), with
no operation delivered. -/
def State.reset : State where
  crc := CrcUnit.reset
  lrc := LrcUnit.reset
  rtu := RtuUnit.reset LineConfig.resetChoice
  asc := AscUnit.reset LineConfig.resetChoice
  stream := []
  params := Params.default
  layer := .untimed

end Sys2Proof.Machine
end

