-- ==== Sys2Proof/Machine/Wire.lean ====
section
/-! DEFINITION. The wire formats (30_encoding.md part A) and the ASCII frame decoder
(42_ascii_receiver.md R233). -/

namespace Sys2Proof.Machine

/-! ### Characters (00_scope.md R14). PRESUMED: the spec marks the codes "from general knowledge"
(log 18). -/

/-- `':'`. -/
def colon : Byte := 0x3A

/-- `CR`. -/
def carriageReturn : Byte := 0x0D

/-- `LF`. -/
def lineFeed : Byte := 0x0A

/-- `HEXCH`, '0' to '9' then 'A' to 'F' (30_encoding.md R85). -/
def hexChars : List Byte :=
  [0x30, 0x31, 0x32, 0x33, 0x34, 0x35, 0x36, 0x37, 0x38, 0x39, 0x41, 0x42, 0x43, 0x44, 0x45, 0x46]

/-- 'a' to 'f' (00_scope.md R14). -/
def lowerHexChars : List Byte := [0x61, 0x62, 0x63, 0x64, 0x65, 0x66]

/-! ### Capacities -/

/-- MAX_PDU_DATA_LENGTH (00_scope.md R8). -/
def maxPduDataLength : Nat := 252

/-- RTU_RX_CAP (00_scope.md R9). -/
def rtuRxCap : Nat := 256

/-- ASCII_TX_CAP, MAX_FRAME_SIZE of the send buffer (00_scope.md R9). -/
def asciiTxCap : Nat := 513

/-! ### RTU -/

/-- `rtu_encode(f)` (30_encoding.md R81). -/
def rtuEncode (f : Frame) : List Byte :=
  let body := f.address :: f.functionCode :: f.data
  let c := crc16 body
  body ++ [crcLow c, crcHigh c]

/-- `rtu_fields(buf)` (30_encoding.md R82): the two last bytes are the received CRC. Total: an index
past the end reads 0, which no run of 4 bytes or more meets. -/
def rtuFields (buf : List Byte) : Frame where
  kind := .rtu
  address := buf.getD 0 0
  functionCode := buf.getD 1 0
  data := (buf.drop 2).take (buf.length - 4)

/-! ### ASCII -/

/-- The character of one hex digit (30_encoding.md R85). -/
def hexChar (n : Nat) : Byte := hexChars.getD n 0

/-- `hex(b)`, the high nibble first (30_encoding.md R85, 20_memory.md R63). -/
def hexPair (b : Byte) : List Byte := [hexChar (b.toNat / 16), hexChar (b.toNat % 16)]

/-- `ascii_encode(f)` before it meets the send buffer (30_encoding.md R88). -/
def asciiEncode (f : Frame) : List Byte :=
  let body := f.address :: f.functionCode :: f.data
  colon :: (body ++ [lrc8 body]).flatMap hexPair ++ [carriageReturn, lineFeed]

/-- The encoding built in the send buffer of `ASCII_TX_CAP` characters; none on overflow
(30_encoding.md R88). -/
def asciiSend (f : Frame) : Option (List Byte) :=
  if (asciiEncode f).length ≤ asciiTxCap then some (asciiEncode f) else none

/-- `hv(c)`, the value of a hex digit, if `c` is one; lowercase only under
`ASCII_ACCEPT_LOWERCASE` (30_encoding.md R86). -/
def hexValue (p : Params) (c : Byte) : Option Nat :=
  match hexChars.idxOf? c with
  | some n => some n
  | none => if p.asciiAcceptLowercase then (lowerHexChars.idxOf? c).map (· + 10) else none

/-- `unhex(c1, c2)`; none is "malformed" (30_encoding.md R86). -/
def unhex (p : Params) (c1 c2 : Byte) : Option Byte :=
  match hexValue p c1, hexValue p c2 with
  | some h, some l => some (BitVec.ofNat 8 (16 * h + l))
  | _, _ => none

/-- Decode a body pair by pair; none when its length is odd or a pair is malformed
(42_ascii_receiver.md R233). -/
def decodePairs (p : Params) : List Byte → Option (List Byte)
  | [] => some []
  | [_] => none
  | c1 :: c2 :: rest =>
    match unhex p c1 c2, decodePairs p rest with
    | some b, some bs => some (b :: bs)
    | _, _ => none

/-- Remove the CRs at the end of a body (42_ascii_receiver.md R233, R234). -/
def stripTrailingCr (body : List Byte) : List Byte :=
  (body.reverse.dropWhile (· == carriageReturn)).reverse

/-- Why a raw ASCII frame is dropped (10_state.md R51): an annotation no operation reads. -/
inductive DropReason
  | nok
  | malformed
  | short
  | long
  | lrc
  deriving DecidableEq, Repr

/-- The body of a raw frame: what stands between the ':' and the ending CR LF (R233). -/
def asciiBody (p : Params) (raw : List Byte) : List Byte :=
  let body := (raw.drop 1).take (raw.length - 3)
  if p.asciiStripExtraCr then stripTrailingCr body else body

/-- The checks on the decoded bytes `d`: the short and long lengths, then the LRC (R233). -/
def asciiFrame (d : List Byte) : Except DropReason Frame :=
  if d.length < 3 then .error .short
  else if 255 < d.length then .error .long
  else if lrc8 d.dropLast ≠ d.getLastD 0 then .error .lrc
  else .ok ⟨.ascii, d.getD 0 0, d.getD 1 0, (d.drop 2).dropLast⟩

/-- `ascii_decode(raw, nok)` (42_ascii_receiver.md R233). -/
def asciiDecode (p : Params) (raw : List Byte) (nok : Bool) : Except DropReason Frame :=
  if nok then .error .nok
  else
    match decodePairs p (asciiBody p raw) with
    | none => .error .malformed
    | some d => asciiFrame d

/-- The raw frame of a frame value, by its kind (30_encoding.md R81, R88). -/
def rawFrame (f : Frame) : List Byte :=
  match f.kind with
  | .rtu => rtuEncode f
  | .ascii => asciiEncode f

end Sys2Proof.Machine
end

