-- ==== Sys2Proof/Machine/Operands.lean ====
section
/-! DEFINITION. The operands of the operations as the values they stand for: a received character
(10_state.md R21), a submitted frame (R20), a selected counter (R37). -/

namespace Sys2Proof.Machine

/-- A character as the port delivers it (10_state.md R21). -/
structure Character where
  byte    : Byte
  valid   : Bool
  overrun : Bool
  deriving DecidableEq, Repr

/-- The frame value of a submission; none when construction fails (10_state.md R20,
43_transceiver.md R260). -/
def makeFrame (kind : FrameKind) (address functionCode : Byte) (data : List Byte) : Option Frame :=
  if data.length ≤ maxPduDataLength then some ⟨kind, address, functionCode, data⟩ else none

/-- The counter that a select names (10_state.md R37). -/
def RtuUnit.counter (u : RtuUnit) : CounterSelect → BitVec 64
  | .msg => u.cntMsg
  | .err => u.cntErr
  | .ovr => u.cntOvr

/-- Write 0 to the counter that a select names (43_transceiver.md R291). -/
def RtuUnit.zeroCounter (u : RtuUnit) : CounterSelect → RtuUnit
  | .msg => { u with cntMsg := 0 }
  | .err => { u with cntErr := 0 }
  | .ovr => { u with cntOvr := 0 }

end Sys2Proof.Machine
end

