-- ==== Sys2Proof/Machine/Flags.lean ====
section
/-! DEFINITION. The flags of a run (10_state.md R29 to R31), the counters' arithmetic
(43_transceiver.md R292), the verdict on a finished run (41_rtu_receiver.md R185) and the numbers of
the completion codes (60_exceptions.md R320). -/

namespace Sys2Proof.Machine

/-- A character that is invalid or overrun makes its run NOK (R174, R175). -/
def Character.nok (c : Character) : Bool := !c.valid || c.overrun

/-- `RTU.buf` is full, so that the next character overflows (R175). -/
def RtuUnit.full (u : RtuUnit) : Bool := decide (rtuRxCap ≤ u.buf.length)

/-- `sat64(v + 1)` (00_scope.md R11, 43_transceiver.md R292). -/
def saturatingSucc (v : BitVec 64) : BitVec 64 := BitVec.ofNat 64 (min (v.toNat + 1) (2 ^ 64 - 1))

/-- What the end of a run finds, the first that holds (R185, 60_exceptions.md R332). -/
inductive RunVerdict
  | nok
  | short
  | crc
  | clean
  deriving DecidableEq, Repr

/-- NOK, then the length, then the CRC residue (R185). -/
def runVerdict (nok : Bool) (buf : List Byte) : RunVerdict :=
  if nok then .nok
  else if buf.length < 4 then .short
  else if crc16 buf ≠ 0 then .crc
  else .clean

/-- A NOK run counts as an overrun: a character of it was overrun, or, under
`OVERFLOW_COUNTS_AS_OVERRUN`, it overflowed the buffer (R185). -/
def countsAsOverrun (p : Params) (ovr ovf : Bool) : Bool := ovr || (p.overflowCountsAsOverrun && ovf)

/-- The number of a completion code (60_exceptions.md R320). -/
def CompletionCode.number : CompletionCode → Nat
  | .ok => 0
  | .invalidOperation => 1
  | .invalidFrame => 2
  | .deviceError => 3
  | .operationCancelled => 4
  | .frameConstruction => 5
  | .configurationError => 6

end Sys2Proof.Machine
end

