-- ==== Sys2Proof/Machine/Ops.lean ====
section
/-! DEFINITION. The named operations over the state that the meanings are written with: replacing a
unit, emitting events, the transmit slot and the hold set (43_transceiver.md section 1), the
lifecycle (section 4) and the two timers (41_rtu_receiver.md section 2).

There is no exception entry and no exception return to share: the block has no traps
(60_exceptions.md R326). Pseudocode is read in sequence (log 13). -/

namespace Sys2Proof.Machine

/-! ### Replacing one unit of the machine (20_memory.md R72) -/

/-- The machine with another CRC engine. -/
def State.setCrc (s : State) (u : CrcUnit) : State := { s with crc := u }

/-- The machine with another LRC engine. -/
def State.setLrc (s : State) (u : LrcUnit) : State := { s with lrc := u }

/-- The machine with another RTU transceiver. -/
def State.setRtu (s : State) (u : RtuUnit) : State := { s with rtu := u }

/-- The machine with another ASCII transceiver. -/
def State.setAsc (s : State) (u : AscUnit) : State := { s with asc := u }

/-- The RTU transceiver with another transmit side. -/
def RtuUnit.setCh (u : RtuUnit) (c : Channel) : RtuUnit := { u with ch := c }

/-- The ASCII transceiver with another transmit side. -/
def AscUnit.setCh (u : AscUnit) (c : Channel) : AscUnit := { u with ch := c }

/-! ### Events (00_scope.md R13, 10_state.md R48) -/

/-- `emit E` on the CRC engine. -/
def CrcUnit.emit (u : CrcUnit) (e : Event) : CrcUnit := { u with out := u.out ++ [e] }

/-- `emit E` on the LRC engine. -/
def LrcUnit.emit (u : LrcUnit) (e : Event) : LrcUnit := { u with out := u.out ++ [e] }

/-- `emit` of events in order on a transceiver. -/
def Channel.emitAll (c : Channel) (es : List Event) : Channel := { c with out := c.out ++ es }

/-- `emit E` on a transceiver. -/
def Channel.emit (c : Channel) (e : Event) : Channel := c.emitAll [e]

/-- `complete(t, CODE)` (00_scope.md R13). -/
def Channel.complete (c : Channel) (t : Tag) (code : CompletionCode) : Channel :=
  c.emit (.result t code)

/-! ### Sets of requests (10_state.md R35, R36; log 14) -/

/-- Add a tag to a set of tags kept ascending. -/
def insertTag (t : Tag) : List Tag → List Tag
  | [] => [t]
  | x :: xs =>
    if t.toNat < x.toNat then t :: x :: xs
    else if t = x then x :: xs
    else x :: insertTag t xs

/-- Add a submission to a set kept ascending by tag. -/
def insertSubmission (h : Submission) : List Submission → List Submission
  | [] => [h]
  | x :: xs => if h.tag.toNat < x.tag.toNat then h :: x :: xs else x :: insertSubmission h xs

/-- The tag is that of a held submission. -/
def Channel.holds (c : Channel) (t : Tag) : Bool := c.hold.any (·.tag == t)

/-- The tag is that of the submission in the slot. -/
def Channel.inSlot (c : Channel) (t : Tag) : Bool := c.txreg.any (·.tag == t)

/-- The tag is that of an outstanding request (30_encoding.md R95). -/
def Channel.outstanding (c : Channel) (t : Tag) : Bool :=
  c.holds t || c.inSlot t || c.waiters.contains t

/-- The slot holds a frame whose write has not begun. -/
def Channel.unstarted (c : Channel) : Bool := c.txreg.any (!·.started)

/-- The slot holds a frame whose write has begun. -/
def Channel.writing (c : Channel) : Bool := c.txreg.any (·.started)

/-! ### The transmit slot (43_transceiver.md section 1) -/

/-- `draw` of an index below `k`: forced when there is one choice, else the free value of draw number
`n` of the transceiver of kind `own` (R264; log 10). -/
def drawIndex (own : FrameKind) (n k : Nat) : Nat :=
  if k ≤ 1 then 0 else Config.freeDraw own n % k

/-- REFILL (R264) on the transceiver of kind `own`. -/
def Channel.refill (c : Channel) (own : FrameKind) : Channel :=
  match c.life, c.txreg, c.hold with
  | .opened, none, h :: hs =>
    let i := drawIndex own c.draws (hs.length + 1)
    let drawn := (h :: hs).getD i h
    { c with
      hold := (h :: hs).eraseIdx i
      txreg := some ⟨drawn.tag, drawn.frame, false⟩
      draws := c.draws + 1 }
  | _, _, _ => c

/-- TXS once the tag is known to be free: construction, then the lifecycle, then the kind, then the
slot or the hold set (R260, R261). `own` is the unit's kind. -/
def Channel.submit (c : Channel) (own : FrameKind) (t : Tag) (k : FrameKind)
    (address functionCode : Byte) (data : List Byte) : Channel :=
  match makeFrame own address functionCode data with
  | none => c.complete t .frameConstruction
  | some f =>
    if c.life ≠ .opened then c.complete t .invalidOperation
    else if k ≠ own then c.complete t .invalidFrame
    else
      match c.txreg with
      | none => { c with txreg := some ⟨t, f, false⟩ }
      | some _ => { c with hold := insertSubmission ⟨t, f⟩ c.hold }

/-- The slot's write begins: `started <- 1`, `emit PORT_TX(raw)` (41_rtu_receiver.md R178,
43_transceiver.md R269). -/
def Channel.startWrite (c : Channel) (slot : TxSlot) (raw : List Byte) : Channel :=
  { c with txreg := some { slot with started := true } }.emit (.portTx raw)

/-- The code of a finished write (R270, R271). -/
def writeCode (failed : Bool) : CompletionCode := if failed then .deviceError else .ok

/-- The slot's write has ended: complete its request and free the slot (R270, R271). -/
def Channel.finishWrite (c : Channel) (slot : TxSlot) (failed : Bool) : Channel :=
  { c.complete slot.tag (writeCode failed) with txreg := none }

/-- The prefix of an aborted write that reached the line: a free value of draw number `n` of the
transceiver of kind `own` (R277; log 11). -/
def drawnPrefix (own : FrameKind) (n : Nat) (raw : List Byte) : List Byte :=
  raw.take (Config.freePrefixLength own n % (raw.length + 1))

/-- Abort the slot's write: PORT_TX_ABORT, the request's completion, the slot freed (R275, R277,
R283). -/
def Channel.abortWrite (c : Channel) (own : FrameKind) (slot : TxSlot) (code : CompletionCode) :
    Channel :=
  { (c.emit .portTxAbort).complete slot.tag code with
    txreg := none
    draws := c.draws + 1
    linePrefixes := c.linePrefixes ++ [drawnPrefix own c.draws (rawFrame slot.frame)] }

/-! ### Cancellation (43_transceiver.md R275) -/

/-- What a cancelled tag names, the first that holds (R275). -/
inductive CancelTarget
  | held
  | unstarted (slot : TxSlot)
  | inFlight (slot : TxSlot)
  | waiter
  | nothing
  deriving DecidableEq, Repr

/-- The request a tag names: a held submission, the one in the slot, a waiter, or none (R275). -/
def Channel.cancelTarget (c : Channel) (t : Tag) : CancelTarget :=
  if c.holds t then .held
  else
    match c.txreg with
    | some slot =>
      if slot.tag = t then (if slot.started then .inFlight slot else .unstarted slot)
      else if c.waiters.contains t then .waiter else .nothing
    | none => if c.waiters.contains t then .waiter else .nothing

/-- Remove a held submission and complete it as cancelled (R275). -/
def Channel.cancelHeld (c : Channel) (t : Tag) : Channel :=
  { c with hold := c.hold.filter (·.tag != t) }.complete t .operationCancelled

/-- Remove the unstarted submission from the slot, complete it as cancelled, refill (R275). -/
def Channel.cancelUnstarted (c : Channel) (own : FrameKind) (t : Tag) : Channel :=
  ({ c with txreg := none }.complete t .operationCancelled).refill own

/-- Remove a waiter and complete it as cancelled (R275). -/
def Channel.cancelWaiter (c : Channel) (t : Tag) : Channel :=
  { c with waiters := c.waiters.filter (· != t) }.complete t .operationCancelled

/-! ### Lifecycle (43_transceiver.md section 4) -/

/-- The tags FAIL_PENDING completes, ascending: the held submissions and an unstarted one in the slot
(R282). -/
def Channel.pendingTags (c : Channel) : List Tag :=
  match c.txreg with
  | some slot =>
    if slot.started then c.hold.map (·.tag) else insertTag slot.tag (c.hold.map (·.tag))
  | none => c.hold.map (·.tag)

/-- FAIL_PENDING (R282). -/
def Channel.failPending (c : Channel) : Channel :=
  { c.emitAll (c.pendingTags.map (.result · .invalidOperation)) with
    hold := []
    txreg := if c.unstarted then none else c.txreg }

/-- COMPLETE_CLOSE, the part the transceivers share: CLOSED, dispose once, complete the waiters in
ascending order (R284). -/
def Channel.completeClose (c : Channel) : Channel :=
  { (c.emitAll (if c.disposed then [] else [.portDispose])).emitAll
      (c.waiters.map (.result · .ok)) with
    life := .closed
    disposed := true
    waiters := [] }

/-- TERMINATE up to its COMPLETE_CLOSE: fail what is pending, abort a started write (R283). -/
def Channel.abandon (c : Channel) (own : FrameKind) : Channel :=
  let c1 := c.failPending
  match c1.txreg with
  | some slot => c1.abortWrite own slot .invalidOperation
  | none => c1

/-- WAIT once the tag is known to be free (R287). -/
def Channel.addWaiter (c : Channel) (t : Tag) : Channel :=
  if c.life = .closed then c.complete t .ok else { c with waiters := insertTag t c.waiters }

/-- STAT: 1 only in CLOSED (R286). -/
def Channel.reportClosed (c : Channel) : Channel :=
  c.emit (.value (if c.life = .closed then 1 else 0))

/-! ### The RTU timers (41_rtu_receiver.md R190) -/

/-- `arm15 <- 1`, with its deadline from the operation being taken (R190). -/
def RtuUnit.startT15 (u : RtuUnit) : RtuUnit := { u with arm15 := true, d15 := u.now + t15 u.cfg }

/-- `arm35 <- 1`, with its deadline from the operation being taken (R190). -/
def RtuUnit.startT35 (u : RtuUnit) : RtuUnit := { u with arm35 := true, d35 := u.now + t35 u.cfg }

/-! ### COMPLETE_CLOSE and END_WRITE per transceiver -/

/-- COMPLETE_CLOSE(RTU) (R284). The counters are not touched. -/
def RtuUnit.completeClose (u : RtuUnit) : RtuUnit :=
  { u with
    ch := u.ch.completeClose
    st := .idle
    eph := .tx
    buf := []
    nok := false
    ovr := false
    ovf := false
    arm15 := false
    arm35 := false }

/-- COMPLETE_CLOSE(ASC) (R284). -/
def AscUnit.completeClose (u : AscUnit) : AscUnit :=
  { u with ch := u.ch.completeClose, ast := .idle, abuf := [], anok := false }

/-- END_WRITE(RTU): close if closing, else the settle wait and REFILL (R270). -/
def RtuUnit.endWrite (u : RtuUnit) : RtuUnit :=
  if u.ch.life = .closing then u.completeClose
  else ({ u with eph := .settle }.startT35).setCh (u.ch.refill .rtu)

/-- END_WRITE(ASC): close if closing, else REFILL (R271). -/
def AscUnit.endWrite (u : AscUnit) : AscUnit :=
  if u.ch.life = .closing then u.completeClose else u.setCh (u.ch.refill .ascii)

end Sys2Proof.Machine
end

