-- ==== Sys2Proof/Machine/AsciiReceiver.lean ====
section
/-! DEFINITION. The meaning of ASC.RXC: the delimiter detector and the delivery of a frame
(42_ascii_receiver.md). -/

namespace Sys2Proof.Machine

/-- RESTART(V) (R221). -/
def AscUnit.restart (u : AscUnit) (valid : Bool) : AscUnit :=
  { u with abuf := [colon], anok := !valid, ast := .append }

/-- APP(B, V): append one character; with the buffer full it is not stored (R221). -/
def AscUnit.app (u : AscUnit) (p : Params) (b : Byte) (valid : Bool) : AscUnit :=
  { u with
    abuf := if u.abuf.length < p.asciiRxCap then u.abuf ++ [b] else u.abuf
    anok := u.anok || !decide (u.abuf.length < p.asciiRxCap) || !valid }

/-- Surface the decoded frame, if the buffer decodes and the unit is OPEN (R232). -/
def AscUnit.surface (u : AscUnit) (p : Params) : AscUnit :=
  match asciiDecode p u.abuf u.anok with
  | .ok f => if u.ch.life = .opened then u.setCh (u.ch.emit (.frame f)) else u
  | .error _ => u

/-- DELIVER(V), at the LF that ends a frame (R232). -/
def AscUnit.deliver (u : AscUnit) (p : Params) (valid : Bool) : AscUnit :=
  { (u.app p lineFeed valid).surface p with abuf := [], anok := false, ast := .idle }

/-- The state rules of ASC.RXC (R223 to R230). -/
def AscUnit.receive (u : AscUnit) (p : Params) (b : Byte) (valid : Bool) : AscUnit :=
  match u.ast with
  | .idle => if b = colon then u.restart valid else u
  | .append =>
    if b = colon then u.restart valid
    else if b = carriageReturn then { u.app p b valid with ast := .eof }
    else u.app p b valid
  | .eof =>
    if b = colon then u.restart valid
    else if b = lineFeed then u.deliver p valid
    else if b = carriageReturn then u.app p b valid
    else { u.app p b valid with ast := .append }

/-- ASC.RXC B, V (R222; R220 while not OPEN). -/
def execAscRxc (b : Byte) (valid : Bool) (s : State) : Result :=
  if s.asc.ch.life = .opened then .next (s.setAsc (s.asc.receive s.params b valid)) else .next s

end Sys2Proof.Machine
end

