-- ==== Sys2Proof/Machine/Checksum.lean ====
section
/-! DEFINITION. The meanings of the checksum engines' operations (40_checksum.md). -/

namespace Sys2Proof.Machine

/-- CRC.INIT (R122). -/
def execCrcInit (s : State) : Result := .next (s.setCrc { s.crc with acc := crcInitial })

/-- CRC.UPD B (R123). -/
def execCrcUpd (b : Byte) (s : State) : Result :=
  .next (s.setCrc { s.crc with acc := crcStep s.crc.acc b })

/-- CRC.READ (R124). -/
def execCrcRead (s : State) : Result := .next (s.setCrc (s.crc.emit (.value s.crc.acc.toNat)))

/-- LRC.INIT (R130). -/
def execLrcInit (s : State) : Result := .next (s.setLrc { s.lrc with sum := 0 })

/-- LRC.UPD B (R131). -/
def execLrcUpd (b : Byte) (s : State) : Result :=
  .next (s.setLrc { s.lrc with sum := lrcStep s.lrc.sum b })

/-- LRC.READ (R132). -/
def execLrcRead (s : State) : Result :=
  .next (s.setLrc (s.lrc.emit (.value (lrcOfSum s.lrc.sum).toNat)))

end Sys2Proof.Machine
end

