-- ==== Sys2Proof/Machine/Counters.lean ====
section
/-! DEFINITION. The meanings of the RTU bus counter operations: RTU.CNR and RTU.CNZ
(43_transceiver.md section 5). -/

namespace Sys2Proof.Machine

/-- RTU.CNR C (R290). -/
def execRtuCnr (c : CounterSelect) (s : State) : Result :=
  .next (s.setRtu (s.rtu.setCh (s.rtu.ch.emit (.value (s.rtu.counter c).toNat))))

/-- RTU.CNZ C (R291). -/
def execRtuCnz (c : CounterSelect) (s : State) : Result := .next (s.setRtu (s.rtu.zeroCounter c))

end Sys2Proof.Machine
end

