-- ==== Sys2Proof/Machine/Lifecycle.lean ====
section
/-! DEFINITION. The meanings of the lifecycle operations: CLS, STAT and WAIT (43_transceiver.md
section 4). -/

namespace Sys2Proof.Machine

/-! ### CLS -/

/-- TERMINATE(RTU) (R283). -/
def RtuUnit.terminate (u : RtuUnit) : RtuUnit := (u.setCh (u.ch.abandon .rtu)).completeClose

/-- TERMINATE(ASC) (R283). -/
def AscUnit.terminate (u : AscUnit) : AscUnit := (u.setCh (u.ch.abandon .ascii)).completeClose

/-- The RTU receiver is at a wait point with nothing in flight (R280, R282). -/
def RtuUnit.nothingInFlight (u : RtuUnit) : Bool :=
  match u.st with
  | .init | .idle => true
  | .emission => u.eph == .settle
  | .reception | .ctrlwait => false

/-- A graceful close of an OPEN RTU transceiver (R280, R282). -/
def RtuUnit.beginClose (u : RtuUnit) : RtuUnit :=
  let u1 := u.setCh { u.ch with life := .closing }.failPending
  if u.nothingInFlight then u1.completeClose else u1

/-- A graceful close of an OPEN ASCII transceiver: reception in progress is abandoned (R281). -/
def AscUnit.beginClose (u : AscUnit) : AscUnit :=
  let c := { u.ch with life := .closing }.failPending
  let u1 := { u with ch := c, abuf := [], anok := false, ast := .idle }
  if c.txreg.isNone then u1.completeClose else u1

/-- RTU.CLS X (R280). -/
def execRtuCls (forcibly : Bool) (s : State) : Result :=
  match s.rtu.ch.life, forcibly with
  | .closed, _ => .next s
  | _, true => .next (s.setRtu s.rtu.terminate)
  | .closing, false => .next s
  | .opened, false => .next (s.setRtu s.rtu.beginClose)

/-- ASC.CLS X (R281). -/
def execAscCls (forcibly : Bool) (s : State) : Result :=
  match s.asc.ch.life, forcibly with
  | .closed, _ => .next s
  | _, true => .next (s.setAsc s.asc.terminate)
  | .closing, false => .next s
  | .opened, false => .next (s.setAsc s.asc.beginClose)

/-! ### STAT (R286) -/

/-- RTU.STAT (R286). -/
def execRtuStat (s : State) : Result := .next (s.setRtu (s.rtu.setCh s.rtu.ch.reportClosed))

/-- ASC.STAT (R286). -/
def execAscStat (s : State) : Result := .next (s.setAsc (s.asc.setCh s.asc.ch.reportClosed))

/-! ### WAIT (R287) -/

/-- RTU.WAIT T (R287; the tag of an outstanding request is refused, R95). -/
def execRtuWait (t : Tag) (s : State) : Result :=
  if s.rtu.ch.outstanding t then .refused .tagReuse
  else .next (s.setRtu (s.rtu.setCh (s.rtu.ch.addWaiter t)))

/-- ASC.WAIT T (R287; the tag of an outstanding request is refused, R95). -/
def execAscWait (t : Tag) (s : State) : Result :=
  if s.asc.ch.outstanding t then .refused .tagReuse
  else .next (s.setAsc (s.asc.setCh (s.asc.ch.addWaiter t)))

end Sys2Proof.Machine
end

