-- ==== Sys2Proof/Machine/RtuReceiver.lean ====
section
/-! DEFINITION. The meanings of the RTU receiver's operations: RTU.RXC, RTU.T15, RTU.T35 with
FINALIZE, and RTU.STEP (41_rtu_receiver.md section 2). -/

namespace Sys2Proof.Machine

/-! ### RTU.RXC, state by state -/

/-- `if O = 1: emit PORT_OVR_ACK` (R172). -/
def RtuUnit.ackOverrun (u : RtuUnit) (c : Character) : RtuUnit :=
  if c.overrun then u.setCh (u.ch.emit .portOvrAck) else u

/-- A character in IDLE starts a run (R174). -/
def RtuUnit.startRun (u : RtuUnit) (c : Character) : RtuUnit :=
  ({ u with
      buf := [c.byte]
      nok := c.nok
      ovr := c.overrun
      ovf := false
      st := .reception }.startT15).startT35

/-- A character in RECEPTION extends the run; with the buffer full it is not stored (R175). -/
def RtuUnit.extendRun (u : RtuUnit) (c : Character) : RtuUnit :=
  ({ u with
      buf := if u.full then u.buf else u.buf ++ [c.byte]
      nok := u.nok || u.full || c.nok
      ovr := u.ovr || c.overrun
      ovf := u.ovf || u.full }.startT15).startT35

/-- A character in CTRLWAIT makes the run NOK and is not stored (R177). -/
def RtuUnit.spoilRun (u : RtuUnit) (c : Character) : RtuUnit :=
  { u with nok := true, ovr := u.ovr || c.overrun }.startT35

/-- The state rules of RTU.RXC (R173, R174, R175, R177, R179). -/
def RtuUnit.receive (u : RtuUnit) (c : Character) : RtuUnit :=
  match u.st with
  | .init => u.startT35
  | .idle => u.startRun c
  | .reception => u.extendRun c
  | .ctrlwait => u.spoilRun c
  | .emission =>
    match u.eph with
    | .settle => u.startT35
    | .tx => u

/-- RTU.RXC B, V, O (R172; R165 in CLOSED). -/
def execRtuRxc (b : Byte) (valid overrun : Bool) (s : State) : Result :=
  let c : Character := ⟨b, valid, overrun⟩
  if s.rtu.ch.life = .closed then .next s
  else .next (s.setRtu ((s.rtu.ackOverrun c).receive c))

/-! ### The timers -/

/-- The operation being taken is not before the deadline `d`. Only the timed layer asks (R191: "A timer
never fires before its deadline"; log 9). -/
def RtuUnit.reached (u : RtuUnit) (l : Layer) (d : Nat) : Bool :=
  match l with
  | .untimed => true
  | .timed => decide (d ≤ u.now)

/-- RTU.T15 takes effect: the timer is armed and due, and the unit is not closed (R165, R170, R191). -/
def RtuUnit.t15Effective (u : RtuUnit) (l : Layer) : Bool :=
  u.ch.life != .closed && u.arm15 && u.reached l u.d15

/-- RTU.T35 takes effect: armed and due, the 1.5 timer not armed, the unit not closed (R165, R171,
R191). -/
def RtuUnit.t35Effective (u : RtuUnit) (l : Layer) : Bool :=
  u.ch.life != .closed && u.arm35 && !u.arm15 && u.reached l u.d35

/-- RTU.T15 (R180). -/
def execRtuT15 (s : State) : Result :=
  if s.rtu.t15Effective s.layer then
    .next (s.setRtu { s.rtu with arm15 := false, st := .ctrlwait })
  else .next s

/-- Count a run by its verdict, and surface a clean one while OPEN (R185, R186). -/
def RtuUnit.countRun (u : RtuUnit) (p : Params) : RtuUnit :=
  match runVerdict u.nok u.buf with
  | .nok =>
    { u with
      cntErr := saturatingSucc u.cntErr
      cntOvr := if countsAsOverrun p u.ovr u.ovf then saturatingSucc u.cntOvr else u.cntOvr }
  | .short | .crc => { u with cntErr := saturatingSucc u.cntErr }
  | .clean =>
    { u with
      cntMsg := saturatingSucc u.cntMsg
      ch := if u.ch.life = .opened then u.ch.emit (.frame (rtuFields u.buf)) else u.ch }

/-- FINALIZE, the end of a run (R185). -/
def RtuUnit.finalize (u : RtuUnit) (p : Params) : RtuUnit :=
  { u.countRun p with buf := [], nok := false, ovr := false, ovf := false }

/-- RTU.T35 in CTRLWAIT: FINALIZE, IDLE, and the end of a graceful close (R183). -/
def RtuUnit.endRun (u : RtuUnit) (p : Params) : RtuUnit :=
  let u1 := { u.finalize p with st := .idle }
  if u1.ch.life = .closing then u1.completeClose else u1

/-- The state rules of RTU.T35 once it takes effect (R181 to R184). No run reaches the last two cases;
the pseudocode has no arm for them (log 20). -/
def RtuUnit.silence (u : RtuUnit) (p : Params) : RtuUnit :=
  let u1 := { u with arm35 := false }
  match u.st with
  | .init => { u1 with st := .idle }
  | .ctrlwait => u1.endRun p
  | .emission => { u1 with st := .idle, eph := .tx }
  | .idle => u1
  | .reception => u1

/-- RTU.T35 (R181). -/
def execRtuT35 (s : State) : Result :=
  if s.rtu.t35Effective s.layer then .next (s.setRtu (s.rtu.silence s.params)) else .next s

/-! ### RTU.STEP -/

/-- The queued frame the transmitter may take: OPEN, IDLE, the slot's write not begun (R178). -/
def RtuUnit.ready (u : RtuUnit) : Option TxSlot :=
  match u.ch.life, u.st, u.ch.txreg with
  | .opened, .idle, some slot => if slot.started then none else some slot
  | _, _, _ => none

/-- RTU.STEP (R178). -/
def execRtuStep (s : State) : Result :=
  match s.rtu.ready with
  | some slot =>
    .next (s.setRtu
      { s.rtu with
        ch := s.rtu.ch.startWrite slot (rtuEncode slot.frame)
        st := .emission
        eph := .tx })
  | none => .next s

end Sys2Proof.Machine
end

