-- ==== Sys2Proof/Machine/Transmit.lean ====
section
/-! DEFINITION. The meanings of the transmit operations: TXS, ASC.STEP, TXD and CXL
(43_transceiver.md sections 1 to 3). RTU.STEP stands with the RTU receiver. -/

namespace Sys2Proof.Machine

/-! ### TXS (R260) -/

/-- RTU.TXS T, K, N, payload (R260; the tag of an outstanding request is refused, R95). -/
def execRtuTxs (t : Tag) (k : FrameKind) (address functionCode : Byte) (data : List Byte)
    (s : State) : Result :=
  if s.rtu.ch.outstanding t then .refused .tagReuse
  else .next (s.setRtu (s.rtu.setCh (s.rtu.ch.submit .rtu t k address functionCode data)))

/-- ASC.TXS T, K, N, payload (R260; the tag of an outstanding request is refused, R95). -/
def execAscTxs (t : Tag) (k : FrameKind) (address functionCode : Byte) (data : List Byte)
    (s : State) : Result :=
  if s.asc.ch.outstanding t then .refused .tagReuse
  else .next (s.setAsc (s.asc.setCh (s.asc.ch.submit .ascii t k address functionCode data)))

/-! ### ASC.STEP (R269) -/

/-- The queued frame the ASCII transmitter may take: OPEN, the slot's write not begun (R269). -/
def AscUnit.ready (u : AscUnit) : Option TxSlot :=
  match u.ch.life, u.ch.txreg with
  | .opened, some slot => if slot.started then none else some slot
  | _, _ => none

/-- ASC.STEP (R269); overflow of the send buffer is a fault (30_encoding.md R88). -/
def execAscStep (s : State) : Result :=
  match s.asc.ready with
  | some slot =>
    match asciiSend slot.frame with
    | some raw => .next (s.setAsc (s.asc.setCh (s.asc.ch.startWrite slot raw)))
    | none => .fault .asciiSendOverflow
  | none => .next s

/-! ### TXD (R270, R271) -/

/-- The started write a TXD completes; none in CLOSED or with no write in flight (R270, R271). -/
def Channel.inFlight (c : Channel) : Option TxSlot :=
  match c.life, c.txreg with
  | .closed, _ => none
  | _, some slot => if slot.started then some slot else none
  | _, none => none

/-- RTU.TXD F (R270). That the port owes the completion is step's concern (R272, portRefusal). -/
def execRtuTxd (failed : Bool) (s : State) : Result :=
  match s.rtu.ch.inFlight with
  | some slot => .next (s.setRtu (s.rtu.setCh (s.rtu.ch.finishWrite slot failed)).endWrite)
  | none => .next s

/-- ASC.TXD F (R271). That the port owes the completion is step's concern (R272, portRefusal). -/
def execAscTxd (failed : Bool) (s : State) : Result :=
  match s.asc.ch.inFlight with
  | some slot => .next (s.setAsc (s.asc.setCh (s.asc.ch.finishWrite slot failed)).endWrite)
  | none => .next s

/-! ### CXL (R275) -/

/-- RTU.CXL T (R275). -/
def execRtuCxl (t : Tag) (s : State) : Result :=
  let c := s.rtu.ch
  if c.life = .closed then .next s
  else
    match c.cancelTarget t with
    | .held => .next (s.setRtu (s.rtu.setCh (c.cancelHeld t)))
    | .unstarted _ => .next (s.setRtu (s.rtu.setCh (c.cancelUnstarted .rtu t)))
    | .inFlight slot =>
      .next (s.setRtu (s.rtu.setCh (c.abortWrite .rtu slot .operationCancelled)).endWrite)
    | .waiter => .next (s.setRtu (s.rtu.setCh (c.cancelWaiter t)))
    | .nothing => .next s

/-- ASC.CXL T (R275). -/
def execAscCxl (t : Tag) (s : State) : Result :=
  let c := s.asc.ch
  if c.life = .closed then .next s
  else
    match c.cancelTarget t with
    | .held => .next (s.setAsc (s.asc.setCh (c.cancelHeld t)))
    | .unstarted _ => .next (s.setAsc (s.asc.setCh (c.cancelUnstarted .ascii t)))
    | .inFlight slot =>
      .next (s.setAsc (s.asc.setCh (c.abortWrite .ascii slot .operationCancelled)).endWrite)
    | .waiter => .next (s.setAsc (s.asc.setCh (c.cancelWaiter t)))
    | .nothing => .next s

end Sys2Proof.Machine
end

