-- ==== Sys2Proof/Machine/Dispatch.lean ====
section
/-! DEFINITION. The meaning of every operation, one arm per constructor of Instr. -/

namespace Sys2Proof.Machine

def exec (i : Instr) (s : State) : Host.Outcome State Fault Refusal :=
  match i with
  -- Checksum engines (40_checksum.md)
  | .crcInit => Sys2Proof.Machine.execCrcInit s
  | .crcUpd b => Sys2Proof.Machine.execCrcUpd b s
  | .crcRead => Sys2Proof.Machine.execCrcRead s
  | .lrcInit => Sys2Proof.Machine.execLrcInit s
  | .lrcUpd b => Sys2Proof.Machine.execLrcUpd b s
  | .lrcRead => Sys2Proof.Machine.execLrcRead s
  -- RTU transceiver (41_rtu_receiver.md, 43_transceiver.md)
  | .rtuRxc b valid overrun => Sys2Proof.Machine.execRtuRxc b valid overrun s
  | .rtuT15 => Sys2Proof.Machine.execRtuT15 s
  | .rtuT35 => Sys2Proof.Machine.execRtuT35 s
  | .rtuTxs t k address functionCode data => Sys2Proof.Machine.execRtuTxs t k address functionCode data s
  | .rtuTxd failed => Sys2Proof.Machine.execRtuTxd failed s
  | .rtuCnr c => Sys2Proof.Machine.execRtuCnr c s
  | .rtuCnz c => Sys2Proof.Machine.execRtuCnz c s
  | .rtuCls forcibly => Sys2Proof.Machine.execRtuCls forcibly s
  | .rtuCxl t => Sys2Proof.Machine.execRtuCxl t s
  | .rtuStat => Sys2Proof.Machine.execRtuStat s
  | .rtuWait t => Sys2Proof.Machine.execRtuWait t s
  | .rtuStep => Sys2Proof.Machine.execRtuStep s
  -- ASCII transceiver (42_ascii_receiver.md, 43_transceiver.md)
  | .ascRxc b valid => Sys2Proof.Machine.execAscRxc b valid s
  | .ascTxs t k address functionCode data => Sys2Proof.Machine.execAscTxs t k address functionCode data s
  | .ascTxd failed => Sys2Proof.Machine.execAscTxd failed s
  | .ascCls forcibly => Sys2Proof.Machine.execAscCls forcibly s
  | .ascCxl t => Sys2Proof.Machine.execAscCxl t s
  | .ascStat => Sys2Proof.Machine.execAscStat s
  | .ascWait t => Sys2Proof.Machine.execAscWait t s
  | .ascStep => Sys2Proof.Machine.execAscStep s

end Sys2Proof.Machine
end

