-- ==== Sys2Proof/Machine/Timing.lean ====
section
/-! DEFINITION. Which streams are streams of the hardware (60_exceptions.md R328): the timed layer
(41_rtu_receiver.md R190 to R192), which says which operation may be taken at which timestamp, the
port's duty (43_transceiver.md R272), and the clock of the RTU unit. That a timer does not fire early
stands with the timers (RtuUnit.reached). -/

namespace Sys2Proof.Machine

/-- The unit an operation is given to (30_encoding.md R92: "The high nibble of OP names the unit"). -/
inductive UnitKind
  | crc
  | lrc
  | rtu
  | asc
  deriving DecidableEq, Repr

/-- The unit of each operation (30_encoding.md R92). -/
def unitOf : Instr → UnitKind
  | .crcInit | .crcUpd _ | .crcRead => .crc
  | .lrcInit | .lrcUpd _ | .lrcRead => .lrc
  | .rtuRxc _ _ _ | .rtuT15 | .rtuT35 | .rtuTxs _ _ _ _ _ | .rtuTxd _ | .rtuCnr _ | .rtuCnz _
  | .rtuCls _ | .rtuCxl _ | .rtuStat | .rtuWait _ | .rtuStep => .rtu
  | .ascRxc _ _ | .ascTxs _ _ _ _ _ | .ascTxd _ | .ascCls _ | .ascCxl _ | .ascStat | .ascWait _
  | .ascStep => .asc

/-- The deadline the environment owes an expiry for next: the 1.5 timer's while it is armed, else the
3.5 timer's (R192). -/
def RtuUnit.awaitedDeadline (u : RtuUnit) : Option Nat :=
  if u.arm15 then some u.d15 else if u.arm35 then some u.d35 else none

/-- `τ` is past the window of the awaited expiry, so that the timer did not fire in time (R191,
R192). -/
def RtuUnit.overdue (u : RtuUnit) (slack τ : Nat) : Bool :=
  match u.awaitedDeadline with
  | some d => decide (d + slack < τ)
  | none => false

/-- Why the timed layer does not take the operation `i` at `τ`; none when it may be taken. The untimed
layer takes every operation, and only the RTU transceiver has a time axis (log 7, log 24). -/
def timingRefusal (i : Instr) (τ : Nat) (s : State) : Option Refusal :=
  if s.layer = .untimed ∨ unitOf i ≠ .rtu then none
  else if τ < s.rtu.now then some .timeReversed
  else if s.rtu.overdue s.params.timerSlack τ then some .timerOverdue
  else none

/-- A TXD now would complete a write the port was not given, or one that was aborted: the slot holds no
started write (R272). In CLOSED a late callback is ordinary and has no effect (D8, R329; log 12). -/
def Channel.owedNoCompletion (c : Channel) : Bool := decide (c.life ≠ .closed) && !c.writing

/-- Why the port's duty forbids the operation `i`; none when it does not (R272, R328). -/
def portRefusal (i : Instr) (s : State) : Option Refusal :=
  match i with
  | .rtuTxd _ => if s.rtu.ch.owedNoCompletion then some .portDuty else none
  | .ascTxd _ => if s.asc.ch.owedNoCompletion then some .portDuty else none
  | _ => none

/-- Why no stream of the hardware has the operation `i` at `τ` here; none when one may (R328). -/
def streamRefusal (i : Instr) (τ : Nat) (s : State) : Option Refusal :=
  (timingRefusal i τ s).or (portRefusal i s)

/-- The RTU unit's clock reads the timestamp of the RTU operation being taken (R190). -/
def State.clocked (s : State) (i : Instr) (τ : Nat) : State :=
  if unitOf i = .rtu then s.setRtu { s.rtu with now := τ } else s

end Sys2Proof.Machine
end

