-- ==== Sys2Proof/Machine/Fetch.lean ====
section
/-! DEFINITION. Taking the next operation from the stream (10_state.md R49, 20_memory.md R71;
log 2). -/

namespace Sys2Proof.Machine

/-- What stands at the head of the stream. -/
inductive Fetched
  /-- Nothing: the units wait (20_memory.md R70; log 3). -/
  | waiting
  /-- No operation (30_encoding.md R97, R98, R104; log 15). -/
  | rejected (r : Reject)
  /-- An operation, the timestamp of its head word, and how many words stand after it. -/
  | operation (i : Instr) (stamp rest : Nat)
  deriving DecidableEq, Repr

/-- Decode the head of the stream. -/
def State.fetch (s : State) : Fetched :=
  match s.stream with
  | [] => .waiting
  | w :: ws =>
    match decode (w.word :: ws.map (·.word)) with
    | .error r => .rejected r
    | .ok (i, rest) => .operation i w.stamp rest.length

/-- The stream with only its last `n` words left. -/
def State.keepLast (s : State) (n : Nat) : State :=
  { s with stream := s.stream.drop (s.stream.length - n) }

/-- One step: the next operation of the stream is taken and executed. A rejected word, and an operation
no stream of the hardware has there, refuse the rest of the stream with them (30_encoding.md R97,
60_exceptions.md R328). -/
def stepOnce (s : State) : Result :=
  match s.fetch with
  | .waiting => .next s
  | .rejected r => .refused (.undecodable r)
  | .operation i τ n =>
    match streamRefusal i τ s with
    | some r => .refused r
    | none => exec i ((s.keepLast n).clocked i τ)

/-- A timestamp at which any operation may be taken: the awaited deadline, but not before the clock
(R190 to R192). -/
def State.admissibleStamp (s : State) : Nat := max s.rtu.now (s.rtu.awaitedDeadline.getD 0)

/-- The words `ws` delivered ahead of the stream, at an admissible timestamp. -/
def State.deliver (s : State) (ws : List Word) : State :=
  { s with stream := ws.map (⟨s.admissibleStamp, ·⟩) ++ s.stream }

/-- The words of one instruction in the host's numbering, cut to the instruction's own length
(30_encoding.md R94). -/
def instructionWords (nbits w : Nat) : List Word :=
  match tableWords nbits w with
  | [] => []
  | head :: rest => (head :: rest).take (opLength head)

end Sys2Proof.Machine
end

