-- ==== Sys2Proof/Machine/Step.lean ====
section
/-! DEFINITION. The step of the machine, and how the host places one instruction (log 17). -/

namespace Sys2Proof.Machine

/-- One step of the machine. -/
def step (s : State) : Host.Outcome State Fault Refusal := stepOnce s

/-- `s` with one instruction delivered at the head of the operation stream, so that the next step
takes it (log 17). -/
def State.withFetchWord (s : State) (nbits w : Nat) : State := s.deliver (instructionWords nbits w)

end Sys2Proof.Machine
end

