-- ==== Sys2Proof/Safety.lean ====
section
/-! DEFINITION. The terms the claims are stated in: the invariants of 10_state.md section 6, runs of
operations, and what an operation submits and completes. -/

namespace Sys2Proof.Machine

/-! ### Invariants (10_state.md R45, R46) -/

/-- A frame value of its own kind (10_state.md R20; 60_exceptions.md R330). -/
structure Frame.ValidFor (own : FrameKind) (f : Frame) : Prop where
  kind : f.kind = own
  size : f.data.length ≤ maxPduDataLength

/-- The tags of the outstanding requests of a transceiver (30_encoding.md R95). -/
def Channel.tags (c : Channel) : List Tag :=
  c.hold.map (·.tag) ++ c.txreg.toList.map (·.tag) ++ c.waiters

/-- What holds of the transmit side of either transceiver in every reachable state (R45, R46, and the
canonical form of the two sets, log 14). -/
structure ChannelInv (own : FrameKind) (c : Channel) : Prop where
  /-- `hold` is ascending by tag. -/
  holdAscending : c.hold.Pairwise (fun a b => a.tag.toNat < b.tag.toNat)
  /-- `waiters` is ascending. -/
  waitersAscending : c.waiters.Pairwise (fun a b => a.toNat < b.toNat)
  /-- "No two outstanding requests of one unit share a tag" (R46). -/
  tagsDistinct : c.tags.Nodup
  /-- Held frames are frame values of the unit's kind (R35). -/
  holdFrames : ∀ h ∈ c.hold, h.frame.ValidFor own
  /-- The slot's frame is a frame value of the unit's kind (R34). -/
  slotFrame : ∀ slot ∈ c.txreg, slot.frame.ValidFor own
  /-- "`hold` non-empty implies `txreg` is not `none`" (R45). -/
  holdNeedsSlot : c.hold ≠ [] → c.txreg ≠ none
  /-- "`life = CLOSING` implies `hold` empty, `txreg = none` or `txreg.started = 1`" (R45). -/
  closingDrained : c.life = .closing → c.hold = [] ∧ (c.txreg = none ∨ c.writing = true)
  /-- "`life = CLOSED` implies … `txreg = none`, `hold` and `waiters` empty" (R45, R46). -/
  closedEmpty : c.life = .closed → c.txreg = none ∧ c.hold = [] ∧ c.waiters = []
  /-- The port is disposed exactly in CLOSED (10_state.md R38). -/
  disposedClosed : c.disposed = true ↔ c.life = .closed
  /-- `dispose()` has been called once if the port is disposed, else never (43_transceiver.md R285). -/
  disposedOnce : c.out.count .portDispose = c.disposed.toNat

/-- What holds of the RTU transceiver in every reachable state (10_state.md R45). -/
structure RtuInv (u : RtuUnit) : Prop where
  channel : ChannelInv .rtu u.ch
  config : configValid u.cfg = true
  /-- "`arm15 = 1` exactly when `st = RECEPTION`" (R45). -/
  arm15 : u.arm15 = true ↔ u.st = .reception
  /-- "`arm35 = 1` exactly when `st` is INIT, RECEPTION or CTRLWAIT, or `st = EMISSION` and
  `eph = SETTLE`" (R45). -/
  arm35 : u.arm35 = true ↔
    u.st = .init ∨ u.st = .reception ∨ u.st = .ctrlwait ∨ (u.st = .emission ∧ u.eph = .settle)
  /-- "`txreg.started = 1` exactly when `st = EMISSION` and `eph = TX`" (R45). -/
  writing : u.ch.writing = true ↔ u.st = .emission ∧ u.eph = .tx
  /-- `eph` is TX outside EMISSION (R27). -/
  phase : u.st ≠ .emission → u.eph = .tx
  /-- `len(RTU.buf) <= RTU_RX_CAP` (R28). -/
  bufCap : u.buf.length ≤ rtuRxCap
  /-- A run in progress has at least one character (41_rtu_receiver.md R185). -/
  runBuf : u.st = .reception ∨ u.st = .ctrlwait → u.buf ≠ []
  /-- Outside a run the buffer and the flags are clear (R29 to R31). -/
  noRun : u.st ≠ .reception ∧ u.st ≠ .ctrlwait →
    u.buf = [] ∧ u.nok = false ∧ u.ovr = false ∧ u.ovf = false
  /-- Overrun and overflow make the run NOK (R29). -/
  flagsNok : u.ovr = true ∨ u.ovf = true → u.nok = true
  /-- "`life = CLOSING` implies … `st` in {RECEPTION, CTRLWAIT} or (`st = EMISSION` and
  `eph = TX`)" (R45). -/
  closingInFlight : u.ch.life = .closing →
    u.st = .reception ∨ u.st = .ctrlwait ∨ (u.st = .emission ∧ u.eph = .tx)
  /-- "`life = CLOSED` implies `st = IDLE`" (R45). -/
  closedIdle : u.ch.life = .closed → u.st = .idle
  /-- Both deadlines of a run are measured from one character (41_rtu_receiver.md R171, R193). -/
  deadlines : u.arm15 = true → u.d15 + t35 u.cfg = u.d35 + t15 u.cfg

/-- What holds of the ASCII transceiver in every reachable state (10_state.md R46). -/
structure AscInv (p : Params) (u : AscUnit) : Prop where
  channel : ChannelInv .ascii u.ch
  config : configValid u.cfg = true
  /-- "`ast = IDLE` implies `abuf = []` and `anok = 0`" (R46). -/
  idleClear : u.ast = .idle → u.abuf = [] ∧ u.anok = false
  /-- "`ast` in {APPEND, EOF} implies `len(abuf) >= 1` and `abuf[0] = ':'`" (R46). -/
  startsWithColon : u.ast ≠ .idle → u.abuf.head? = some colon
  /-- "`ast = EOF` implies the last byte of `abuf` is CR or `anok = 1`" (R46). -/
  eofAfterCr : u.ast = .eof → u.abuf.getLast? = some carriageReturn ∨ u.anok = true
  /-- `len(ASC.abuf) <= ASCII_RX_CAP` (R42). -/
  bufCap : u.abuf.length ≤ p.asciiRxCap
  /-- "`life = CLOSING` implies … `txreg.started = 1` and `ast = IDLE`" (R46). -/
  closingWriting : u.ch.life = .closing → u.ch.writing = true ∧ u.ast = .idle
  /-- "`life = CLOSED` implies `ast = IDLE`" (R46). -/
  closedIdle : u.ch.life = .closed → u.ast = .idle

/-- The invariant of the machine. -/
structure Inv (s : State) : Prop where
  rtu : RtuInv s.rtu
  asc : AscInv s.params s.asc
  /-- The open parameters are in their domains (92_eei_decisions.md, "Open parameters"). -/
  params : paramsValid s.rtu.cfg s.params = true
  /-- In the timed layer the awaited expiry can still be delivered (41_rtu_receiver.md R192). -/
  timerLive : s.layer = .timed → ∀ d ∈ s.rtu.awaitedDeadline, s.rtu.now ≤ d + s.params.timerSlack

/-! ### Runs of operations -/

/-- Execute operations one after the other, stopping at the first that does not complete
(20_memory.md R71). -/
def execAll : List Instr → State → Result
  | [], s => .next s
  | i :: rest, s =>
    match exec i s with
    | .next t => execAll rest t
    | .fault f => .fault f
    | .refused r => .refused r

/-- The bytes a list of operations gives to the CRC engine. -/
def crcBytes (ops : List Instr) : List Byte :=
  ops.filterMap fun
    | .crcUpd b => some b
    | _ => none

/-- The characters a list of operations delivers to the RTU receiver. -/
def rtuCharacters (ops : List Instr) : List Character :=
  ops.filterMap fun
    | .rtuRxc b valid overrun => some ⟨b, valid, overrun⟩
    | _ => none

/-- Valid characters for the ASCII receptor, one operation each. -/
def ascCharacters (bytes : List Byte) : List Instr := bytes.map (.ascRxc · true)

/-! ### Requests and completions (60_exceptions.md R320, R321) -/

/-- The tag an operation submits to the RTU transceiver, if it submits one. -/
def rtuSubmits : Instr → Option Tag
  | .rtuTxs t _ _ _ _ => some t
  | .rtuWait t => some t
  | _ => none

/-- The tag an operation submits to the ASCII transceiver, if it submits one. -/
def ascSubmits : Instr → Option Tag
  | .ascTxs t _ _ _ _ => some t
  | .ascWait t => some t
  | _ => none

/-- The event completes the request with tag `t`. -/
def Event.completes (t : Tag) : Event → Bool
  | .result t' _ => t' == t
  | _ => false

/-- How often events complete the request with tag `t`. -/
def completions (t : Tag) (es : List Event) : Nat := es.countP (·.completes t)

end Sys2Proof.Machine
end

