-- ==== Sys2Proof/Certificates/Slice0/Obligations.lean ====
section
/-! DEFINITION. The statements for the provers, in the order of OBLIGATIONS.json. Each docstring names
the rules of spec/ it rests on; OBLIGATIONS.json says which of them a statement states whole. -/

open Sys2Proof
open Sys2Proof.Machine

/-! ### Encoding -/

/-- 30_encoding.md R90 to R93: the decoder gives every encoded operation back, with every operand,
and leaves the words after it. -/
def Obligations.DecodeReadsBackEncode : Prop :=
  ∀ (i : Instr) (rest : List Word), i.wf = true → decode (encode i ++ rest) = .ok (i, rest)

/-- 30_encoding.md R90 to R93, R98: whatever the decoder accepts is the encoding of an encodable
operation, so every operation has one encoding. -/
def Obligations.DecodeAcceptsOnlyEncodings : Prop :=
  ∀ (ws : List Word) (i : Instr) (rest : List Word),
    decode ws = .ok (i, rest) → i.wf = true ∧ ws = encode i ++ rest

/-- 30_encoding.md R97, with the opcode table's OP values. -/
def Obligations.UnassignedOpRefusesTheStream : Prop :=
  ∀ (s : State) (w : StreamWord) (rest : List StreamWord), s.stream = w :: rest →
    (∀ row ∈ opcodeTable, row.op ≠ w.word.extractLsb' 24 8) →
    step s = .refused (.undecodable .unassignedOp)

/-- 30_encoding.md R98, with the opcode table's masks; the second part is the unused bytes of a TXS
payload (R93). -/
def Obligations.ReservedBitsAreRefused : Prop :=
  (∀ (s : State) (w : StreamWord) (rest : List StreamWord), s.stream = w :: rest →
    ∀ row ∈ opcodeTable, row.op = w.word.extractLsb' 24 8 → row.fits w.word = false →
    step s = .refused (.undecodable .reservedBits)) ∧
  (∀ (s : State) (w : StreamWord) (rest : List StreamWord) (j : Nat), s.stream = w :: rest →
    w.word &&& 0xFF00EF00 = 0x23000000 ∨ w.word &&& 0xFF00EF00 = 0x33000000 →
    let p := (w.word.extractLsb' 0 8).toNat + 2
    ceilDiv p 4 ≤ rest.length → p ≤ j → j < 4 * ceilDiv p 4 →
    ((rest.map (·.word)).getD (j / 4) 0).extractLsb' (8 * (j % 4)) 8 ≠ 0 →
    step s = .refused (.undecodable .reservedBits))

/-- 30_encoding.md R94: the length of an operation follows from its head word. -/
def Obligations.OperationLengthFromHeadWord : Prop :=
  ∀ (w : Word) (ws : List Word) (i : Instr) (rest : List Word),
    decode (w :: ws) = .ok (i, rest) →
    let n :=
      if w.extractLsb' 24 8 = 0x23 ∨ w.extractLsb' 24 8 = 0x33 then
        1 + ceilDiv ((w.extractLsb' 0 8).toNat + 2) 4
      else 1
    n ≤ (w :: ws).length ∧ rest = (w :: ws).drop n

/-- 30_encoding.md R90 to R93: each row of the opcode map is the words of its own operation, written
out from the row's OP and format; and R102, which the spec marks as derived: its own encoding examples,
decoded. -/
def Obligations.EncodingExamplesDecode : Prop :=
  (∀ (b : Byte) (t : Tag) (x : Bool) (c : CounterSelect),
    let byte (b : Byte) : Word := b.setWidth 32
    let tag (t : Tag) : Word := t.setWidth 32 <<< 16
    let bit (n : Nat) (x : Bool) : Word := (BitVec.ofBool x).setWidth 32 <<< n
    let select : Word := if c = .msg then 0 else if c = .err then 1 else 2
    encode .crcInit = [0x00000000] ∧
    encode (.crcUpd b) = [0x01000000 ||| byte b] ∧
    encode .crcRead = [0x02000000] ∧
    encode .lrcInit = [0x10000000] ∧
    encode (.lrcUpd b) = [0x11000000 ||| byte b] ∧
    encode .lrcRead = [0x12000000] ∧
    (∀ overrun, encode (.rtuRxc b x overrun) =
      [0x20000000 ||| bit 9 overrun ||| bit 8 x ||| byte b]) ∧
    encode .rtuT15 = [0x21000000] ∧
    encode .rtuT35 = [0x22000000] ∧
    encode (.rtuTxd x) = [0x24000000 ||| bit 8 x] ∧
    encode (.rtuCnr c) = [0x25000000 ||| select] ∧
    encode (.rtuCnz c) = [0x26000000 ||| select] ∧
    encode (.rtuCls x) = [0x27000000 ||| bit 8 x] ∧
    encode (.rtuCxl t) = [0x28000000 ||| tag t] ∧
    encode .rtuStat = [0x29000000] ∧
    encode (.rtuWait t) = [0x2A000000 ||| tag t] ∧
    encode .rtuStep = [0x2B000000] ∧
    encode (.ascRxc b x) = [0x30000000 ||| bit 8 x ||| byte b] ∧
    encode (.ascTxd x) = [0x34000000 ||| bit 8 x] ∧
    encode (.ascCls x) = [0x37000000 ||| bit 8 x] ∧
    encode (.ascCxl t) = [0x38000000 ||| tag t] ∧
    encode .ascStat = [0x39000000] ∧
    encode (.ascWait t) = [0x3A000000 ||| tag t] ∧
    encode .ascStep = [0x3B000000] ∧
    ∀ (k : FrameKind) (address functionCode : Byte) (data : List Byte), data.length ≤ 255 →
      ∃ payload : List Word,
        let fields : Word :=
          tag t ||| bit 12 (decide (k = .ascii)) ||| BitVec.ofNat 32 data.length
        encode (.rtuTxs t k address functionCode data) = (0x23000000 ||| fields) :: payload ∧
        encode (.ascTxs t k address functionCode data) = (0x33000000 ||| fields) :: payload ∧
        payload.length = ceilDiv (data.length + 2) 4 ∧
        ∀ j, (payload.getD (j / 4) 0).extractLsb' (8 * (j % 4)) 8 =
          (address :: functionCode :: data).getD j 0) ∧
  (decode [0x20000101] = .ok (.rtuRxc 0x01 true false, []) ∧
  decode [0x20000001] = .ok (.rtuRxc 0x01 false false, []) ∧
  decode [0x20000301] = .ok (.rtuRxc 0x01 true true, []) ∧
  decode [0x22000000] = .ok (.rtuT35, []) ∧
  decode [0x25000001] = .ok (.rtuCnr .err, []) ∧
  decode [0x27000100] = .ok (.rtuCls true, []) ∧
  decode [0x3000013A] = .ok (.ascRxc 0x3A true, []) ∧
  decode [0x23010004, 0x00000301, 0x00000800] =
    .ok (.rtuTxs 1 .rtu 0x01 0x03 [0x00, 0x00, 0x00, 0x08], []))

/-! ### The step -/

/-- 20_memory.md R71, R77: when the head of the stream is the encoding of `i`, one step is `exec i`
on the state with those words consumed and, for an RTU operation, the clock at the head word's
timestamp, unless the timed layer holds it back (the untimed layer holds nothing back, log 7, log 24) or it is a
completion the port does not owe (43_transceiver.md R272, log 12). -/
def Obligations.StepExecutesTheDecodedOperation : Prop :=
  ∀ (s : State) (i : Instr) (w : StreamWord) (ws rest : List StreamWord),
    i.wf = true → s.stream = w :: ws ++ rest → (w :: ws).map (·.word) = encode i →
    s.layer = .untimed ∨ timingRefusal i w.stamp s = none →
    (∀ failed, i = .rtuTxd failed → s.rtu.ch.life = .closed ∨ s.rtu.ch.writing = true) →
    (∀ failed, i = .ascTxd failed → s.asc.ch.life = .closed ∨ s.asc.ch.writing = true) →
    step s = exec i
      (if unitOf i = .rtu then { s with stream := rest, rtu := { s.rtu with now := w.stamp } }
       else { s with stream := rest })

/-- 20_memory.md R70: a unit waits for its operations; with none delivered nothing changes (log 3).
-/
def Obligations.EmptyStreamWaits : Prop :=
  ∀ s : State, s.stream = [] → step s = .next s

/-- 41_rtu_receiver.md R192: in the timed layer an RTU operation (at a timestamp that does not go
back) is refused as overdue exactly when the awaited timer's window has passed. -/
def Obligations.OverdueTimersRefuseTheStream : Prop :=
  ∀ (s : State) (i : Instr) (w : StreamWord) (ws rest : List StreamWord),
    i.wf = true → s.stream = w :: ws ++ rest → (w :: ws).map (·.word) = encode i →
    s.layer = .timed → unitOf i = .rtu → s.rtu.now ≤ w.stamp →
    (step s = .refused .timerOverdue ↔
      (s.rtu.arm15 = true ∧ s.rtu.d15 + s.params.timerSlack < w.stamp) ∨
      (s.rtu.arm35 = true ∧ s.rtu.arm15 = false ∧ s.rtu.d35 + s.params.timerSlack < w.stamp))

/-- 41_rtu_receiver.md R191: in the timed layer an expiry that takes effect does so in its window,
which is at most one character time long. -/
def Obligations.TimersFireInTheirWindow : Prop :=
  ∀ (s t : State) (w : StreamWord) (rest : List StreamWord),
    Inv s → s.layer = .timed → s.stream = w :: rest → step s = .next t →
    s.params.timerSlack ≤ hct s.rtu.cfg ∧
    ([w.word] = encode .rtuT15 → t.rtu.arm15 ≠ s.rtu.arm15 →
      s.rtu.d15 ≤ w.stamp ∧ w.stamp ≤ s.rtu.d15 + s.params.timerSlack) ∧
    ([w.word] = encode .rtuT35 → t.rtu.arm35 ≠ s.rtu.arm35 →
      s.rtu.d35 ≤ w.stamp ∧ w.stamp ≤ s.rtu.d35 + s.params.timerSlack)

/-- 41_rtu_receiver.md R190: "non-decreasing along the stream". -/
def Obligations.TimestampsNeverGoBack : Prop :=
  ∀ (s : State) (i : Instr) (w : StreamWord) (ws rest : List StreamWord),
    i.wf = true → s.stream = w :: ws ++ rest → (w :: ws).map (·.word) = encode i →
    s.layer = .timed → unitOf i = .rtu →
    (step s = .refused .timeReversed ↔ w.stamp < s.rtu.now)

/-- 41_rtu_receiver.md R193, which the spec marks as derived: the 1.5 window of a run closes before
its 3.5 deadline, for every slack of R191; and what the gap `g` after the last character (taken at
`τ`) means for a valid next character, before and after the 1.5 expiry. -/
def Obligations.GapDecidesTheNextCharacter : Prop :=
  (∀ (c : LineConfig) (p : Params), configValid c = true → paramsValid c p = true →
    t15 c + p.timerSlack < t35 c) ∧
  ∀ (s : State) (w : StreamWord) (rest : List StreamWord) (b : Byte) (τ g : Nat),
    s.layer = .timed → s.rtu.ch.life ≠ .closed → s.stream = w :: rest →
    [w.word] = encode (.rtuRxc b true false) → w.stamp = τ + g → s.rtu.now ≤ w.stamp →
    s.rtu.d15 = τ + t15 s.rtu.cfg → s.rtu.d35 = τ + t35 s.rtu.cfg →
    (s.rtu.st = .reception → s.rtu.arm15 = true → s.rtu.buf.length < 256 →
      (g ≤ t15 s.rtu.cfg + s.params.timerSlack →
        ∃ t, step s = .next t ∧ t.rtu.st = .reception ∧ t.rtu.buf = s.rtu.buf ++ [b] ∧
          t.rtu.nok = s.rtu.nok ∧ t.rtu.d15 = w.stamp + t15 s.rtu.cfg ∧
          t.rtu.d35 = w.stamp + t35 s.rtu.cfg) ∧
      (t15 s.rtu.cfg + s.params.timerSlack < g → step s = .refused .timerOverdue)) ∧
    (s.rtu.st = .ctrlwait → s.rtu.arm15 = false → s.rtu.arm35 = true →
      (g ≤ t35 s.rtu.cfg + s.params.timerSlack →
        ∃ t, step s = .next t ∧ t.rtu.st = .ctrlwait ∧ t.rtu.buf = s.rtu.buf ∧ t.rtu.nok = true ∧
          t.rtu.d35 = w.stamp + t35 s.rtu.cfg) ∧
      (t35 s.rtu.cfg + s.params.timerSlack < g → step s = .refused .timerOverdue))

/-! ### Checksums -/

/-- 40_checksum.md R122, R123 (with the step of R120 on naturals), R124. -/
def Obligations.CrcEngineOperations : Prop :=
  ∀ (s : State) (b : Byte),
    exec .crcInit s = .next { s with crc := { s.crc with acc := 0xFFFF } } ∧
    (∃ acc : BitVec 16,
      exec (.crcUpd b) s = .next { s with crc := { s.crc with acc := acc } } ∧
      acc.toNat =
        (List.range 8).foldl (fun c _ => if c % 2 = 1 then (c / 2) ^^^ 0xA001 else c / 2)
          (s.crc.acc.toNat ^^^ b.toNat)) ∧
    exec .crcRead s =
      .next { s with crc := { s.crc with out := s.crc.out ++ [.value s.crc.acc.toNat] } }

/-- 40_checksum.md R130, R131, R132. -/
def Obligations.LrcEngineOperations : Prop :=
  ∀ (s : State) (b : Byte),
    exec .lrcInit s = .next { s with lrc := { s.lrc with sum := 0 } } ∧
    exec (.lrcUpd b) s =
      .next { s with
        lrc := { s.lrc with sum := BitVec.ofNat 8 ((s.lrc.sum.toNat + b.toNat) % 256) } } ∧
    exec .lrcRead s =
      .next { s with
        lrc := { s.lrc with out := s.lrc.out ++ [.value ((256 - s.lrc.sum.toNat) % 256)] } }

/-- 40_checksum.md R121, which the spec marks as derived: the residue test is the test "the trailing
two bytes are the little-endian CRC of the preceding bytes". -/
def Obligations.CrcResidueIffTrailerIsTheCrc : Prop :=
  ∀ (m : List Byte) (x y : Byte),
    crc16 (m ++ [x, y]) = 0 ↔
      x = (crc16 m).extractLsb' 0 8 ∧ y = (crc16 m).extractLsb' 8 8

/-- 40_checksum.md R133, which the spec marks as derived: streaming equals batch, whatever reads
stand between the updates. -/
def Obligations.StreamingEqualsBatch : Prop :=
  (∀ (s : State) (ops : List Instr), (∀ i ∈ ops, i = .crcRead ∨ ∃ b, i = .crcUpd b) →
    ∃ t, execAll (.crcInit :: ops) s = .next t ∧ t.crc.acc = crc16 (crcBytes ops)) ∧
  (∀ (s : State) (bytes : List Byte),
    ∃ t, execAll (.lrcInit :: bytes.map .lrcUpd ++ [.lrcRead]) s = .next t ∧
      t.lrc.out = s.lrc.out ++ [.value (lrc8 bytes).toNat])

/-- 40_checksum.md R125 and R126, the latter marked by the spec as derived: the digest on naturals,
and the check as a zero sum. -/
def Obligations.LrcMatchesIffSumIsZero : Prop :=
  (∀ m : List Byte, (lrc8 m).toNat = (256 - (m.map (·.toNat)).sum % 256) % 256) ∧
  (∀ (m : List Byte) (r : Byte),
    lrc8 m = r ↔ ((m ++ [r]).map (·.toNat)).sum % 256 = 0)

/-! ### Wire formats -/

/-- 30_encoding.md R87, which the spec marks as derived: encode and decode are inverses on frames.
-/
def Obligations.FramesRoundTrip : Prop :=
  (∀ (p : Params) (f : Frame), f.ValidFor .ascii → asciiDecode p (asciiEncode f) false = .ok f) ∧
  (∀ f : Frame, f.ValidFor .rtu → rtuFields (rtuEncode f) = f ∧ crc16 (rtuEncode f) = 0)

/-- 30_encoding.md R84, R86, 42_ascii_receiver.md R233: with the default parameters the decoder
accepts nothing between ':' and CR LF but the encoding of a frame. -/
def Obligations.AsciiDecodeAcceptsOnlyEncodings : Prop :=
  ∀ (p : Params) (body : List Byte) (nok : Bool) (f : Frame),
    p.asciiStripExtraCr = false → p.asciiAcceptLowercase = false →
    asciiDecode p (0x3A :: body ++ [0x0D, 0x0A]) nok = .ok f →
    nok = false ∧ f.ValidFor .ascii ∧ 0x3A :: body ++ [0x0D, 0x0A] = asciiEncode f

/-- 30_encoding.md R80, R84, R88: the lengths of raw frames, and that the send buffer holds every
frame value. -/
def Obligations.RawFrameLengths : Prop :=
  (∀ f : Frame, f.ValidFor .rtu →
    (rtuEncode f).length = f.data.length + 4 ∧ (rtuEncode f).length ≤ 256) ∧
  (∀ f : Frame, f.ValidFor .ascii →
    (asciiEncode f).length = 2 * f.data.length + 9 ∧ (asciiEncode f).length ≤ 513 ∧
      asciiSend f = some (asciiEncode f))

/-- 30_encoding.md R85, R86, with the character codes of 00_scope.md R14 (general knowledge by the spec's
own mark, log 18): the two characters of a byte's hex pair, and which characters are hex digits of which
value, lowercase only under `ASCII_ACCEPT_LOWERCASE`; a pair decodes exactly where both are. With
uppercase only, a pair decodes to `b` exactly when it is the hex pair of `b`; with lowercase accepted,
the hex pair still decodes to `b`. -/
def Obligations.HexPairsDecodeUniquely : Prop :=
  let digit (n : Nat) : Byte := BitVec.ofNat 8 (if n < 10 then 0x30 + n else 0x41 + (n - 10))
  let value (lowercase : Bool) (c : Byte) : Option Nat :=
    if 0x30 ≤ c.toNat ∧ c.toNat ≤ 0x39 then some (c.toNat - 0x30)
    else if 0x41 ≤ c.toNat ∧ c.toNat ≤ 0x46 then some (c.toNat - 0x41 + 10)
    else if lowercase = true ∧ 0x61 ≤ c.toNat ∧ c.toNat ≤ 0x66 then some (c.toNat - 0x61 + 10)
    else none
  (∀ b : Byte, hexPair b = [digit (b.toNat / 16), digit (b.toNat % 16)]) ∧
  (∀ c : Byte, c ∈ hexChars ↔ (value false c).isSome) ∧
  ∀ (p : Params) (b c1 c2 : Byte),
    (unhex p c1 c2 = some b ↔
      ∃ h l, value p.asciiAcceptLowercase c1 = some h ∧ value p.asciiAcceptLowercase c2 = some l ∧
        b.toNat = 16 * h + l) ∧
    (p.asciiAcceptLowercase = false → (unhex p c1 c2 = some b ↔ [c1, c2] = hexPair b)) ∧
    ([c1, c2] = hexPair b → unhex p c1 c2 = some b)

/-- 42_ascii_receiver.md R234: extra CRs before CR LF make the body malformed by default, and are
removed first under `ASCII_STRIP_EXTRA_CR`. -/
def Obligations.ExtraCarriageReturns : Prop :=
  ∀ (p : Params) (body : List Byte) (k : Nat) (nok : Bool),
    (p.asciiStripExtraCr = false →
      ∀ f, asciiDecode p (0x3A :: body ++ List.replicate (k + 1) 0x0D ++ [0x0D, 0x0A]) nok ≠ .ok f) ∧
    (p.asciiStripExtraCr = true →
      asciiDecode p (0x3A :: body ++ List.replicate k 0x0D ++ [0x0D, 0x0A]) nok =
        asciiDecode p (0x3A :: body ++ [0x0D, 0x0A]) nok)

/-! ### The RTU receiver -/

/-- 41_rtu_receiver.md R165, R172, R173, R179: characters where no run is gathered. -/
def Obligations.CharactersOutsideARunAreDiscarded : Prop :=
  ∀ (s : State) (b : Byte) (valid overrun : Bool),
    let acked : Channel :=
      { s.rtu.ch with out := s.rtu.ch.out ++ (if overrun then [.portOvrAck] else []) }
    (s.rtu.ch.life = .closed → exec (.rtuRxc b valid overrun) s = .next s) ∧
    (s.rtu.ch.life ≠ .closed → s.rtu.st = .init ∨ (s.rtu.st = .emission ∧ s.rtu.eph = .settle) →
      exec (.rtuRxc b valid overrun) s =
        .next { s with
          rtu := { s.rtu with ch := acked, arm35 := true, d35 := s.rtu.now + t35 s.rtu.cfg } }) ∧
    (s.rtu.ch.life ≠ .closed → s.rtu.st = .emission → s.rtu.eph = .tx →
      exec (.rtuRxc b valid overrun) s = .next { s with rtu := { s.rtu with ch := acked } })

/-- 41_rtu_receiver.md R172, R174, R190: a character in IDLE starts a run. -/
def Obligations.CharacterInIdleStartsARun : Prop :=
  ∀ (s : State) (b : Byte) (valid overrun : Bool),
    s.rtu.ch.life ≠ .closed → s.rtu.st = .idle →
    exec (.rtuRxc b valid overrun) s =
      .next { s with
        rtu := { s.rtu with
          ch := { s.rtu.ch with out := s.rtu.ch.out ++ (if overrun then [.portOvrAck] else []) }
          buf := [b]
          nok := !valid || overrun
          ovr := overrun
          ovf := false
          st := .reception
          arm15 := true
          d15 := s.rtu.now + t15 s.rtu.cfg
          arm35 := true
          d35 := s.rtu.now + t35 s.rtu.cfg } }

/-- 41_rtu_receiver.md R172, R175, R190: a character in RECEPTION; the second part is the full
buffer. -/
def Obligations.CharacterInReceptionExtendsTheRun : Prop :=
  ∀ (s : State) (b : Byte) (valid overrun : Bool),
    s.rtu.ch.life ≠ .closed → s.rtu.st = .reception →
    let extended (buf : List Byte) (full : Bool) : State :=
      { s with
        rtu := { s.rtu with
          ch := { s.rtu.ch with out := s.rtu.ch.out ++ (if overrun then [.portOvrAck] else []) }
          buf := buf
          nok := s.rtu.nok || full || !valid || overrun
          ovr := s.rtu.ovr || overrun
          ovf := s.rtu.ovf || full
          arm15 := true
          d15 := s.rtu.now + t15 s.rtu.cfg
          arm35 := true
          d35 := s.rtu.now + t35 s.rtu.cfg } }
    (s.rtu.buf.length < 256 →
      exec (.rtuRxc b valid overrun) s = .next (extended (s.rtu.buf ++ [b]) false)) ∧
    (256 ≤ s.rtu.buf.length →
      exec (.rtuRxc b valid overrun) s = .next (extended s.rtu.buf true))

/-- 41_rtu_receiver.md R172, R177, R190: a character in CTRLWAIT makes the run NOK. -/
def Obligations.CharacterInCtrlwaitSpoilsTheRun : Prop :=
  ∀ (s : State) (b : Byte) (valid overrun : Bool),
    s.rtu.ch.life ≠ .closed → s.rtu.st = .ctrlwait →
    exec (.rtuRxc b valid overrun) s =
      .next { s with
        rtu := { s.rtu with
          ch := { s.rtu.ch with out := s.rtu.ch.out ++ (if overrun then [.portOvrAck] else []) }
          nok := true
          ovr := s.rtu.ovr || overrun
          arm35 := true
          d35 := s.rtu.now + t35 s.rtu.cfg } }

/-- 41_rtu_receiver.md R165, R170, R180: the 1.5 expiry. In the timed layer it is due first (R191).
-/
def Obligations.ShortTimerEndsTheMainBytes : Prop :=
  ∀ s : State,
    (s.rtu.ch.life = .closed ∨ s.rtu.arm15 = false → exec .rtuT15 s = .next s) ∧
    (s.rtu.ch.life ≠ .closed → s.rtu.arm15 = true →
      s.layer = .untimed ∨ s.rtu.d15 ≤ s.rtu.now →
      exec .rtuT15 s = .next { s with rtu := { s.rtu with arm15 := false, st := .ctrlwait } })

/-- 41_rtu_receiver.md R165, R171, R181, R182, R184: the 3.5 expiry outside a run. In the timed
layer it is due first (R191). -/
def Obligations.LongTimerEndsASilenceWait : Prop :=
  ∀ s : State,
    (s.rtu.ch.life = .closed ∨ s.rtu.arm35 = false ∨ s.rtu.arm15 = true →
      exec .rtuT35 s = .next s) ∧
    (s.rtu.ch.life ≠ .closed → s.rtu.arm35 = true → s.rtu.arm15 = false →
      s.layer = .untimed ∨ s.rtu.d35 ≤ s.rtu.now →
      (s.rtu.st = .init →
        exec .rtuT35 s = .next { s with rtu := { s.rtu with arm35 := false, st := .idle } }) ∧
      (s.rtu.st = .emission → s.rtu.eph = .settle →
        exec .rtuT35 s =
          .next { s with rtu := { s.rtu with arm35 := false, st := .idle, eph := .tx } }))

/-- 41_rtu_receiver.md R183, R185, R186, 43_transceiver.md R284: the 3.5 expiry that ends a run,
while OPEN and while CLOSING. `clean` is the test of R185; the counters saturate (R292). -/
def Obligations.LongTimerFinalizesTheRun : Prop :=
  ∀ s : State,
    s.rtu.st = .ctrlwait → s.rtu.arm35 = true → s.rtu.arm15 = false →
    s.layer = .untimed ∨ s.rtu.d35 ≤ s.rtu.now →
    let u := s.rtu
    let clean : Prop := u.nok = false ∧ 4 ≤ u.buf.length ∧ crc16 u.buf = 0
    let overrun : Prop := u.nok = true ∧
      (u.ovr = true ∨ (s.params.overflowCountsAsOverrun = true ∧ u.ovf = true))
    let sat (v : BitVec 64) : BitVec 64 := BitVec.ofNat 64 (min (v.toNat + 1) (2 ^ 64 - 1))
    ∃ cntMsg cntErr cntOvr,
      (clean → cntMsg = sat u.cntMsg ∧ cntErr = u.cntErr) ∧
      (¬clean → cntMsg = u.cntMsg ∧ cntErr = sat u.cntErr) ∧
      (overrun → cntOvr = sat u.cntOvr) ∧ (¬overrun → cntOvr = u.cntOvr) ∧
      (u.ch.life = .opened →
        ∃ shown,
          (clean → shown = [.frame ⟨.rtu, u.buf.getD 0 0, u.buf.getD 1 0,
            (u.buf.drop 2).take (u.buf.length - 4)⟩]) ∧
          (¬clean → shown = []) ∧
          exec .rtuT35 s = .next { s with
            rtu := { u with
              ch := { u.ch with out := u.ch.out ++ shown }
              st := .idle, arm35 := false, buf := [], nok := false, ovr := false, ovf := false
              cntMsg := cntMsg, cntErr := cntErr, cntOvr := cntOvr } }) ∧
      (u.ch.life = .closing →
        exec .rtuT35 s = .next { s with
          rtu := { u with
            ch := { u.ch with
              life := .closed
              disposed := true
              waiters := []
              out := u.ch.out ++ (if u.ch.disposed then [] else [.portDispose]) ++
                u.ch.waiters.map (.result · .ok) }
            st := .idle, eph := .tx, arm35 := false
            buf := [], nok := false, ovr := false, ovf := false
            cntMsg := cntMsg, cntErr := cntErr, cntOvr := cntOvr } })

/-- 41_rtu_receiver.md R178, 30_encoding.md R81: RTU.STEP writes the queued frame from IDLE, and has
no effect otherwise. -/
def Obligations.RtuStepStartsTheWrite : Prop :=
  ∀ s : State,
    (∀ (t : Tag) (f : Frame),
      s.rtu.ch.life = .opened → s.rtu.st = .idle → s.rtu.ch.txreg = some ⟨t, f, false⟩ →
      let c := crc16 (f.address :: f.functionCode :: f.data)
      exec .rtuStep s = .next { s with
        rtu := { s.rtu with
          st := .emission
          eph := .tx
          ch := { s.rtu.ch with
            txreg := some ⟨t, f, true⟩
            out := s.rtu.ch.out ++ [.portTx (f.address :: f.functionCode :: f.data ++
              [c.extractLsb' 0 8, c.extractLsb' 8 8])] } } }) ∧
    (s.rtu.ch.life ≠ .opened ∨ s.rtu.st ≠ .idle ∨ (∀ slot ∈ s.rtu.ch.txreg, slot.started = true) →
      exec .rtuStep s = .next s)

/-- 41_rtu_receiver.md R188, which the spec marks as derived: a run taken in IDLE while OPEN, of
characters and 1.5 expiries, ended by RTU.T15 then RTU.T35, emits its frame exactly when it is whole
and its trailing two bytes are the CRC of the bytes before them; every other run emits none and
counts one communication error. -/
def Obligations.RunEmitsItsFrameExactlyWhenClean : Prop :=
  ∀ (s : State) (c : Character) (body : List Instr),
    s.layer = .untimed → s.rtu.st = .idle → s.rtu.ch.life = .opened →
    (∀ i ∈ body, i = .rtuT15 ∨ ∃ b valid overrun, i = .rtuRxc b valid overrun) →
    let ops : List Instr := .rtuRxc c.byte c.valid c.overrun :: body
    let bytes := (rtuCharacters ops).map (·.byte)
    let acks := ((rtuCharacters ops).filter (·.overrun)).map fun _ => Event.portOvrAck
    let whole : Prop :=
      (∀ x ∈ rtuCharacters ops, x.valid = true ∧ x.overrun = false) ∧
      4 ≤ bytes.length ∧ bytes.length ≤ 256 ∧
      (∀ before after, body = before ++ .rtuT15 :: after → rtuCharacters after = [])
    let sat (v : BitVec 64) : BitVec 64 := BitVec.ofNat 64 (min (v.toNat + 1) (2 ^ 64 - 1))
    ∃ t, execAll (ops ++ [.rtuT15, .rtuT35]) s = .next t ∧ t.rtu.st = .idle ∧
      (∀ m : List Byte, whole →
        bytes = m ++ [(crc16 m).extractLsb' 0 8, (crc16 m).extractLsb' 8 8] →
        t.rtu.ch.out =
          s.rtu.ch.out ++ [.frame ⟨.rtu, m.getD 0 0, m.getD 1 0, m.drop 2⟩] ∧
        t.rtu.cntMsg = sat s.rtu.cntMsg ∧ t.rtu.cntErr = s.rtu.cntErr) ∧
      ((¬whole ∨ ∀ m : List Byte,
          bytes ≠ m ++ [(crc16 m).extractLsb' 0 8, (crc16 m).extractLsb' 8 8]) →
        t.rtu.ch.out = s.rtu.ch.out ++ acks ∧
        t.rtu.cntMsg = s.rtu.cntMsg ∧ t.rtu.cntErr = sat s.rtu.cntErr)

/-! ### Invariants, reset, construction -/

/-- 10_state.md R45, R46: every step keeps the invariant. -/
def Obligations.StepKeepsTheInvariant : Prop :=
  ∀ s t : State, Inv s → step s = .next t → Inv t

/-- 10_state.md R45, R46: the invariant holds at reset, and after construction of the transceivers
from any valid configurations in either layer, with any valid parameters (log 4, log 5, log 7 name
the model's choices at reset). -/
def Obligations.ResetMeetsTheInvariant : Prop :=
  Inv State.reset ∧
  ∀ (rtuCfg ascCfg : LineConfig) (p : Params) (l : Layer) (stream : List StreamWord),
    configValid rtuCfg = true → configValid ascCfg = true → paramsValid rtuCfg p = true →
    Inv { State.reset with
      rtu := RtuUnit.reset rtuCfg, asc := AscUnit.reset ascCfg, params := p, layer := l
      stream := stream }

/-- 70_reset_and_hazards.md R351: every field whose reset value the spec gives. -/
def Obligations.ConstructionGivesTheResetState : Prop :=
  State.reset.crc.acc = 0xFFFF ∧ State.reset.crc.out = [] ∧
  State.reset.lrc.sum = 0 ∧ State.reset.lrc.out = [] ∧
  (∃ q, RtuUnit.construct q = .ok State.reset.rtu) ∧
  (∃ q, AscUnit.construct q = .ok State.reset.asc) ∧
  (∀ (q : ConfigRequest) (u : RtuUnit), RtuUnit.construct q = .ok u →
    (q.baud = u.cfg.baud ∧ q.dataBits = u.cfg.dataBits ∧ q.parity = some u.cfg.parity ∧
      q.stopBits = u.cfg.stopBits ∧ q.scale = some u.cfg.scale) ∧
    u.ch.life = .opened ∧ u.st = .init ∧ u.eph = .tx ∧ u.buf = [] ∧
    u.nok = false ∧ u.ovr = false ∧ u.ovf = false ∧ u.arm15 = false ∧ u.arm35 = true ∧
    u.d35 = t35 u.cfg ∧ u.ch.txreg = none ∧ u.ch.hold = [] ∧ u.ch.waiters = [] ∧
    u.cntMsg = 0 ∧ u.cntErr = 0 ∧ u.cntOvr = 0 ∧ u.ch.disposed = false ∧ u.ch.out = []) ∧
  (∀ (q : ConfigRequest) (u : AscUnit), AscUnit.construct q = .ok u →
    (q.baud = u.cfg.baud ∧ q.dataBits = u.cfg.dataBits ∧ q.parity = some u.cfg.parity ∧
      q.stopBits = u.cfg.stopBits ∧ q.scale = some u.cfg.scale) ∧
    u.ch.life = .opened ∧ u.ast = .idle ∧ u.abuf = [] ∧ u.anok = false ∧
    u.ch.txreg = none ∧ u.ch.hold = [] ∧ u.ch.waiters = [] ∧ u.ch.disposed = false ∧
    u.ch.out = [])

/-- 60_exceptions.md R322, 00_scope.md R7: construction fails exactly outside the domains, with
CONFIGURATION_ERROR and no unit. -/
def Obligations.InvalidConfigurationsBuildNoUnit : Prop :=
  ∀ q : ConfigRequest,
    let valid : Prop :=
      1 ≤ q.baud ∧ (q.dataBits = 7 ∨ q.dataBits = 8) ∧ q.parity ≠ none ∧
      (q.stopBits = 1 ∨ q.stopBits = 2) ∧ ∃ k, q.scale = some k ∧ 1 ≤ k ∧ k ≤ 512
    (valid → (∃ u, RtuUnit.construct q = .ok u) ∧ ∃ u, AscUnit.construct q = .ok u) ∧
    (¬valid → RtuUnit.construct q = .error .configurationError ∧
      AscUnit.construct q = .error .configurationError)

/-- 41_rtu_receiver.md R160, R161, R162: the durations, each the least natural that is long enough.
-/
def Obligations.TimerDurations : Prop :=
  ∀ c : LineConfig, configValid c = true →
    let bits := 1 + c.dataBits + (if c.parity = .none then 0 else 1) + c.stopBits
    (∀ q, 1000000000 * bits ≤ q * c.baud ↔ charTime c ≤ q) ∧
    hct c = max 250000 (c.scale * charTime c) ∧
    (∀ q, 3 * hct c ≤ q * 2 ↔ t15 c ≤ q) ∧
    (∀ q, 7 * hct c ≤ q * 2 ↔ t35 c ≤ q)

/-! ### Transmission -/

/-- 43_transceiver.md R260, R261, 30_encoding.md R95: TXS on either transceiver. -/
def Obligations.SubmissionIsCheckedThenQueued : Prop :=
  (∀ (s : State) (t : Tag) (k : FrameKind) (a fc : Byte) (data : List Byte),
    let c := s.rtu.ch
    let f : Frame := ⟨.rtu, a, fc, data⟩
    let with' (c' : Channel) : State := { s with rtu := { s.rtu with ch := c' } }
    (t ∈ c.tags → exec (.rtuTxs t k a fc data) s = .refused .tagReuse) ∧
    (t ∉ c.tags → 252 < data.length → exec (.rtuTxs t k a fc data) s =
      .next (with' { c with out := c.out ++ [.result t .frameConstruction] })) ∧
    (t ∉ c.tags → data.length ≤ 252 → c.life ≠ .opened → exec (.rtuTxs t k a fc data) s =
      .next (with' { c with out := c.out ++ [.result t .invalidOperation] })) ∧
    (t ∉ c.tags → data.length ≤ 252 → c.life = .opened → k ≠ .rtu →
      exec (.rtuTxs t k a fc data) s =
        .next (with' { c with out := c.out ++ [.result t .invalidFrame] })) ∧
    (t ∉ c.tags → data.length ≤ 252 → c.life = .opened → k = .rtu → c.txreg = none →
      exec (.rtuTxs t k a fc data) s = .next (with' { c with txreg := some ⟨t, f, false⟩ })) ∧
    (t ∉ c.tags → data.length ≤ 252 → c.life = .opened → k = .rtu → c.txreg ≠ none →
      ∃ hold, exec (.rtuTxs t k a fc data) s = .next (with' { c with hold := hold }) ∧
        ∀ h, h ∈ hold ↔ h = ⟨t, f⟩ ∨ h ∈ c.hold)) ∧
  (∀ (s : State) (t : Tag) (k : FrameKind) (a fc : Byte) (data : List Byte),
    let c := s.asc.ch
    let f : Frame := ⟨.ascii, a, fc, data⟩
    let with' (c' : Channel) : State := { s with asc := { s.asc with ch := c' } }
    (t ∈ c.tags → exec (.ascTxs t k a fc data) s = .refused .tagReuse) ∧
    (t ∉ c.tags → 252 < data.length → exec (.ascTxs t k a fc data) s =
      .next (with' { c with out := c.out ++ [.result t .frameConstruction] })) ∧
    (t ∉ c.tags → data.length ≤ 252 → c.life ≠ .opened → exec (.ascTxs t k a fc data) s =
      .next (with' { c with out := c.out ++ [.result t .invalidOperation] })) ∧
    (t ∉ c.tags → data.length ≤ 252 → c.life = .opened → k ≠ .ascii →
      exec (.ascTxs t k a fc data) s =
        .next (with' { c with out := c.out ++ [.result t .invalidFrame] })) ∧
    (t ∉ c.tags → data.length ≤ 252 → c.life = .opened → k = .ascii → c.txreg = none →
      exec (.ascTxs t k a fc data) s = .next (with' { c with txreg := some ⟨t, f, false⟩ })) ∧
    (t ∉ c.tags → data.length ≤ 252 → c.life = .opened → k = .ascii → c.txreg ≠ none →
      ∃ hold, exec (.ascTxs t k a fc data) s = .next (with' { c with hold := hold }) ∧
        ∀ h, h ∈ hold ↔ h = ⟨t, f⟩ ∨ h ∈ c.hold))

/-- 43_transceiver.md R264, with the draw in the model's own form (log 10): REFILL moves one held
submission, whichever is drawn, into the free slot of an OPEN unit, and does nothing otherwise. `draws`
is the model's own counter (log 10). -/
def Obligations.RefillDrawsOneHeldSubmission : Prop :=
  ∀ (own : FrameKind) (c : Channel), c.hold.Pairwise (fun a b => a.tag.toNat < b.tag.toNat) →
    (c.life = .opened → c.txreg = none → c.hold ≠ [] →
      ∃ h ∈ c.hold, ∃ hold,
        c.refill own = { c with
          hold := hold, txreg := some ⟨h.tag, h.frame, false⟩, draws := c.draws + 1 } ∧
        ∀ x, x ∈ hold ↔ x ∈ c.hold ∧ x ≠ h) ∧
    (c.life ≠ .opened ∨ c.txreg ≠ none ∨ c.hold = [] → c.refill own = c)

/-- 43_transceiver.md R270, R272, R284, 60_exceptions.md R328: RTU.TXD with no started write, where step
refuses it as one the port does not owe (log 12), while OPEN, and while CLOSING. REFILL is
Obligations.RefillDrawsOneHeldSubmission. -/
def Obligations.RtuWriteCompletion : Prop :=
  ∀ (s : State) (failed : Bool),
    let u := s.rtu
    let code : CompletionCode := if failed then .deviceError else .ok
    (u.ch.life = .closed ∨ (∀ slot ∈ u.ch.txreg, slot.started = false) →
      exec (.rtuTxd failed) s = .next s) ∧
    (∀ (w : StreamWord) (rest : List StreamWord), s.stream = w :: rest →
      [w.word] = encode (.rtuTxd failed) →
      s.layer = .untimed ∨ timingRefusal (.rtuTxd failed) w.stamp s = none →
      (step s = .refused .portDuty ↔
        u.ch.life ≠ .closed ∧ ∀ slot ∈ u.ch.txreg, slot.started = false)) ∧
    (∀ (t : Tag) (f : Frame), u.ch.txreg = some ⟨t, f, true⟩ →
      (u.ch.life = .opened →
        exec (.rtuTxd failed) s = .next { s with
          rtu := { u with
            eph := .settle
            arm35 := true
            d35 := u.now + t35 u.cfg
            ch := { u.ch with
              txreg := none, out := u.ch.out ++ [Event.result t code] }.refill .rtu } }) ∧
      (u.ch.life = .closing →
        exec (.rtuTxd failed) s = .next { s with
          rtu := { u with
            ch := { u.ch with
              life := .closed
              txreg := none
              disposed := true
              waiters := []
              out := u.ch.out ++ [.result t code] ++
                (if u.ch.disposed then [] else [.portDispose]) ++
                u.ch.waiters.map (.result · .ok) }
            st := .idle, eph := .tx, buf := [], nok := false, ovr := false, ovf := false
            arm15 := false, arm35 := false } }))

/-- 43_transceiver.md R271, R272, R284, 60_exceptions.md R328: ASC.TXD with no started write, where step
refuses it as one the port does not owe (log 12), while OPEN, and while CLOSING. -/
def Obligations.AscWriteCompletion : Prop :=
  ∀ (s : State) (failed : Bool),
    let u := s.asc
    let code : CompletionCode := if failed then .deviceError else .ok
    (u.ch.life = .closed ∨ (∀ slot ∈ u.ch.txreg, slot.started = false) →
      exec (.ascTxd failed) s = .next s) ∧
    (∀ (w : StreamWord) (rest : List StreamWord), s.stream = w :: rest →
      [w.word] = encode (.ascTxd failed) →
      (step s = .refused .portDuty ↔
        u.ch.life ≠ .closed ∧ ∀ slot ∈ u.ch.txreg, slot.started = false)) ∧
    (∀ (t : Tag) (f : Frame), u.ch.txreg = some ⟨t, f, true⟩ →
      (u.ch.life = .opened →
        exec (.ascTxd failed) s = .next { s with
          asc := { u with
            ch := { u.ch with
              txreg := none, out := u.ch.out ++ [Event.result t code] }.refill .ascii } }) ∧
      (u.ch.life = .closing →
        exec (.ascTxd failed) s = .next { s with
          asc := { u with
            ch := { u.ch with
              life := .closed
              txreg := none
              disposed := true
              waiters := []
              out := u.ch.out ++ [.result t code] ++
                (if u.ch.disposed then [] else [.portDispose]) ++
                u.ch.waiters.map (.result · .ok) }
            ast := .idle, abuf := [], anok := false } }))

/-- 43_transceiver.md R275 on the RTU transceiver: what a cancelled tag names, the first that holds.
An aborted write puts some prefix of the raw frame on the line (R277; `linePrefixes` and `draws` are
the model's own fields, log 10, log 11). The in-flight case is R270's END_WRITE. -/
def Obligations.RtuCancellation : Prop :=
  ∀ (s : State) (t : Tag),
    let u := s.rtu
    let c := u.ch
    let cancelled : List Event := c.out ++ [.result t .operationCancelled]
    let held : Prop := ∃ h ∈ c.hold, h.tag = t
    (c.life = .closed ∨ t ∉ c.tags → exec (.rtuCxl t) s = .next s) ∧
    (c.life ≠ .closed →
      (held → exec (.rtuCxl t) s = .next { s with
        rtu := { u with
          ch := { c with hold := c.hold.filter (fun h => h.tag ≠ t), out := cancelled } } }) ∧
      (∀ f : Frame, ¬held → c.txreg = some ⟨t, f, false⟩ →
        exec (.rtuCxl t) s = .next { s with
          rtu := { u with ch := { c with txreg := none, out := cancelled }.refill .rtu } }) ∧
      (∀ f : Frame, ¬held → c.txreg = some ⟨t, f, true⟩ → f.kind = .rtu →
        ∃ n ≤ (rtuEncode f).length,
          let aborted : Channel :=
            { c with
              txreg := none
              out := c.out ++ [.portTxAbort, .result t .operationCancelled]
              draws := c.draws + 1
              linePrefixes := c.linePrefixes ++ [(rtuEncode f).take n] }
          (c.life = .opened → exec (.rtuCxl t) s = .next { s with
            rtu := { u with
              eph := .settle, arm35 := true, d35 := u.now + t35 u.cfg, ch := aborted.refill .rtu } }) ∧
          (c.life = .closing → exec (.rtuCxl t) s = .next { s with
            rtu := { u with
              ch := { aborted with
                life := .closed
                disposed := true
                waiters := []
                out := aborted.out ++ (if c.disposed then [] else [.portDispose]) ++
                  c.waiters.map (.result · .ok) }
              st := .idle, eph := .tx, buf := [], nok := false, ovr := false, ovf := false
              arm15 := false, arm35 := false } })) ∧
      (¬held → (∀ slot ∈ c.txreg, slot.tag ≠ t) → t ∈ c.waiters →
        exec (.rtuCxl t) s = .next { s with
          rtu := { u with
            ch := { c with waiters := c.waiters.filter (fun x => x ≠ t), out := cancelled } } }))

/-- 43_transceiver.md R275 on the ASCII transceiver, as for the RTU but with no settle delay (R271).
-/
def Obligations.AscCancellation : Prop :=
  ∀ (s : State) (t : Tag),
    let u := s.asc
    let c := u.ch
    let cancelled : List Event := c.out ++ [.result t .operationCancelled]
    let held : Prop := ∃ h ∈ c.hold, h.tag = t
    (c.life = .closed ∨ t ∉ c.tags → exec (.ascCxl t) s = .next s) ∧
    (c.life ≠ .closed →
      (held → exec (.ascCxl t) s = .next { s with
        asc := { u with
          ch := { c with hold := c.hold.filter (fun h => h.tag ≠ t), out := cancelled } } }) ∧
      (∀ f : Frame, ¬held → c.txreg = some ⟨t, f, false⟩ →
        exec (.ascCxl t) s = .next { s with
          asc := { u with ch := { c with txreg := none, out := cancelled }.refill .ascii } }) ∧
      (∀ f : Frame, ¬held → c.txreg = some ⟨t, f, true⟩ → f.kind = .ascii →
        ∃ n ≤ (asciiEncode f).length,
          let aborted : Channel :=
            { c with
              txreg := none
              out := c.out ++ [.portTxAbort, .result t .operationCancelled]
              draws := c.draws + 1
              linePrefixes := c.linePrefixes ++ [(asciiEncode f).take n] }
          (c.life = .opened → exec (.ascCxl t) s = .next { s with
            asc := { u with ch := aborted.refill .ascii } }) ∧
          (c.life = .closing → exec (.ascCxl t) s = .next { s with
            asc := { u with
              ch := { aborted with
                life := .closed
                disposed := true
                waiters := []
                out := aborted.out ++ (if c.disposed then [] else [.portDispose]) ++
                  c.waiters.map (.result · .ok) }
              ast := .idle, abuf := [], anok := false } })) ∧
      (¬held → (∀ slot ∈ c.txreg, slot.tag ≠ t) → t ∈ c.waiters →
        exec (.ascCxl t) s = .next { s with
          asc := { u with
            ch := { c with waiters := c.waiters.filter (fun x => x ≠ t), out := cancelled } } }))

/-- 43_transceiver.md R269, 30_encoding.md R88: ASC.STEP writes the queued frame while OPEN,
whatever the receptor does; with no frame to write it has no effect; a queued value too long for the
send buffer, which no frame value is, faults. -/
def Obligations.AscStepStartsTheWrite : Prop :=
  ∀ s : State,
    (∀ (t : Tag) (f : Frame), s.asc.ch.life = .opened → s.asc.ch.txreg = some ⟨t, f, false⟩ →
      (f.data.length ≤ 252 →
        let body := f.address :: f.functionCode :: f.data
        exec .ascStep s = .next { s with
          asc := { s.asc with
            ch := { s.asc.ch with
              txreg := some ⟨t, f, true⟩
              out := s.asc.ch.out ++ [.portTx
                (0x3A :: (body ++ [lrc8 body]).flatMap hexPair ++ [0x0D, 0x0A])] } } }) ∧
      (252 < f.data.length → exec .ascStep s = .fault .asciiSendOverflow)) ∧
    (s.asc.ch.life ≠ .opened ∨ (∀ slot ∈ s.asc.ch.txreg, slot.started = true) →
      exec .ascStep s = .next s)

/-! ### Lifecycle -/

/-- 43_transceiver.md R280, R282, R284: the graceful close of the RTU transceiver. The completions
of FAIL_PENDING come in ascending order of tag. -/
def Obligations.RtuGracefulClose : Prop :=
  ∀ s : State, RtuInv s.rtu →
    let u := s.rtu
    let c := u.ch
    (c.life ≠ .opened → exec (.rtuCls false) s = .next s) ∧
    (c.life = .opened →
      ∃ failed : List Tag,
        failed.Pairwise (fun a b => a.toNat < b.toNat) ∧
        (∀ x, x ∈ failed ↔ (∃ h ∈ c.hold, h.tag = x) ∨
          ∃ slot ∈ c.txreg, slot.started = false ∧ slot.tag = x) ∧
        let drained : Channel :=
          { c with
            life := .closing
            out := c.out ++ failed.map (.result · .invalidOperation)
            hold := []
            txreg := c.txreg.filter (·.started) }
        (u.st = .reception ∨ u.st = .ctrlwait ∨ (u.st = .emission ∧ u.eph = .tx) →
          exec (.rtuCls false) s = .next { s with rtu := { u with ch := drained } }) ∧
        (u.st = .init ∨ u.st = .idle ∨ (u.st = .emission ∧ u.eph = .settle) →
          exec (.rtuCls false) s = .next { s with
            rtu := { u with
              ch := { drained with
                life := .closed
                disposed := true
                waiters := []
                out := drained.out ++ [.portDispose] ++ c.waiters.map (.result · .ok) }
              st := .idle, eph := .tx, buf := [], nok := false, ovr := false, ovf := false
              arm15 := false, arm35 := false } }))

/-- 43_transceiver.md R281, R282, R284: the graceful close of the ASCII transceiver. -/
def Obligations.AscGracefulClose : Prop :=
  ∀ s : State, AscInv s.params s.asc →
    let u := s.asc
    let c := u.ch
    (c.life ≠ .opened → exec (.ascCls false) s = .next s) ∧
    (c.life = .opened →
      ∃ failed : List Tag,
        failed.Pairwise (fun a b => a.toNat < b.toNat) ∧
        (∀ x, x ∈ failed ↔ (∃ h ∈ c.hold, h.tag = x) ∨
          ∃ slot ∈ c.txreg, slot.started = false ∧ slot.tag = x) ∧
        let drained : Channel :=
          { c with
            life := .closing
            out := c.out ++ failed.map (.result · .invalidOperation)
            hold := []
            txreg := c.txreg.filter (·.started) }
        (c.writing = true →
          exec (.ascCls false) s = .next { s with
            asc := { u with ch := drained, ast := .idle, abuf := [], anok := false } }) ∧
        (c.writing = false →
          exec (.ascCls false) s = .next { s with
            asc := { u with
              ch := { drained with
                life := .closed
                disposed := true
                waiters := []
                out := drained.out ++ [.portDispose] ++ c.waiters.map (.result · .ok) }
              ast := .idle, abuf := [], anok := false } }))

/-- 43_transceiver.md R280, R281, R283, R284, 60_exceptions.md R331: the forcible close of either
transceiver, with the order of its events. It completes in the operation that requests it, whatever
is in flight, and counts nothing. -/
def Obligations.ForcibleClose : Prop :=
  ∀ s : State,
    let closed (c : Channel) (failed : List Tag) (abort : List Event) (draws : Nat)
        (prefixes : List (List Byte)) : Channel :=
      { c with
        life := .closed
        txreg := none
        hold := []
        waiters := []
        disposed := true
        out := c.out ++ failed.map (.result · .invalidOperation) ++ abort ++ [.portDispose] ++
          c.waiters.map (.result · .ok)
        draws := draws
        linePrefixes := prefixes }
    let ordered (c : Channel) (failed : List Tag) : Prop :=
      failed.Pairwise (fun a b => a.toNat < b.toNat) ∧
      ∀ x, x ∈ failed ↔ (∃ h ∈ c.hold, h.tag = x) ∨
        ∃ slot ∈ c.txreg, slot.started = false ∧ slot.tag = x
    let inFlight (c : Channel) (abort : List Event) (draws : Nat) (prefixes : List (List Byte)) :
        Prop :=
      (c.writing = false → abort = [] ∧ draws = c.draws ∧ prefixes = c.linePrefixes) ∧
      (∀ t f, c.txreg = some ⟨t, f, true⟩ →
        abort = [.portTxAbort, .result t .invalidOperation] ∧ draws = c.draws + 1 ∧
        ∃ n ≤ (rawFrame f).length, prefixes = c.linePrefixes ++ [(rawFrame f).take n])
    (RtuInv s.rtu →
      (s.rtu.ch.life = .closed → exec (.rtuCls true) s = .next s) ∧
      (s.rtu.ch.life ≠ .closed →
        ∃ failed abort draws prefixes,
          ordered s.rtu.ch failed ∧ inFlight s.rtu.ch abort draws prefixes ∧
          exec (.rtuCls true) s = .next { s with
            rtu := { s.rtu with
              ch := closed s.rtu.ch failed abort draws prefixes
              st := .idle, eph := .tx, buf := [], nok := false, ovr := false, ovf := false
              arm15 := false, arm35 := false } })) ∧
    (AscInv s.params s.asc →
      (s.asc.ch.life = .closed → exec (.ascCls true) s = .next s) ∧
      (s.asc.ch.life ≠ .closed →
        ∃ failed abort draws prefixes,
          ordered s.asc.ch failed ∧ inFlight s.asc.ch abort draws prefixes ∧
          exec (.ascCls true) s = .next { s with
            asc := { s.asc with
              ch := closed s.asc.ch failed abort draws prefixes
              ast := .idle, abuf := [], anok := false } }))

/-- 43_transceiver.md R284, 60_exceptions.md R329: CLOSED is never left, and in CLOSED every input
from the port and the timers, every cancellation, close and internal step has no effect. -/
def Obligations.ClosedIsFinal : Prop :=
  (∀ (s t : State) (i : Instr), exec i s = .next t →
    (s.rtu.ch.life = .closed → t.rtu.ch.life = .closed) ∧
    (s.asc.ch.life = .closed → t.asc.ch.life = .closed)) ∧
  (∀ (s : State) (b : Byte) (valid overrun x : Bool) (tag : Tag), s.rtu.ch.life = .closed →
    ∀ i ∈ [Instr.rtuRxc b valid overrun, .rtuT15, .rtuT35, .rtuTxd x, .rtuCxl tag, .rtuCls x,
      .rtuStep], exec i s = .next s) ∧
  (∀ (s : State) (b : Byte) (valid x : Bool) (tag : Tag), s.asc.ch.life = .closed →
    ∀ i ∈ [Instr.ascRxc b valid, .ascTxd x, .ascCxl tag, .ascCls x, .ascStep],
      exec i s = .next s)

/-- 43_transceiver.md R285, which the spec marks as derived, and 10_state.md R38: whatever the
operation, a disposed port is not disposed again, and a port is disposed once at the most. -/
def Obligations.PortIsDisposedAtMostOnce : Prop :=
  ∀ (s t : State) (i : Instr), exec i s = .next t →
    ∀ c c' : Channel, (c = s.rtu.ch ∧ c' = t.rtu.ch) ∨ (c = s.asc.ch ∧ c' = t.asc.ch) →
      (c.disposed = true →
        c'.disposed = true ∧ c'.out.count .portDispose = c.out.count .portDispose) ∧
      (c.disposed = false →
        c'.out.count .portDispose = c.out.count .portDispose + c'.disposed.toNat)

/-- 43_transceiver.md R286, R287: STAT and WAIT on either transceiver. -/
def Obligations.StatAndWait : Prop :=
  ∀ (s : State) (t : Tag),
    let rtu (c : Channel) : State := { s with rtu := { s.rtu with ch := c } }
    let asc (c : Channel) : State := { s with asc := { s.asc with ch := c } }
    let reads (c : Channel) : Nat := if c.life = .closed then 1 else 0
    exec .rtuStat s = .next (rtu
      { s.rtu.ch with out := s.rtu.ch.out ++ [.value (reads s.rtu.ch)] }) ∧
    exec .ascStat s = .next (asc
      { s.asc.ch with out := s.asc.ch.out ++ [.value (reads s.asc.ch)] }) ∧
    (t ∈ s.rtu.ch.tags → exec (.rtuWait t) s = .refused .tagReuse) ∧
    (t ∈ s.asc.ch.tags → exec (.ascWait t) s = .refused .tagReuse) ∧
    (t ∉ s.rtu.ch.tags → s.rtu.ch.life = .closed → exec (.rtuWait t) s =
      .next (rtu { s.rtu.ch with out := s.rtu.ch.out ++ [.result t .ok] })) ∧
    (t ∉ s.asc.ch.tags → s.asc.ch.life = .closed → exec (.ascWait t) s =
      .next (asc { s.asc.ch with out := s.asc.ch.out ++ [.result t .ok] })) ∧
    (t ∉ s.rtu.ch.tags → s.rtu.ch.life ≠ .closed →
      ∃ waiters, exec (.rtuWait t) s = .next (rtu { s.rtu.ch with waiters := waiters }) ∧
        ∀ x, x ∈ waiters ↔ x = t ∨ x ∈ s.rtu.ch.waiters) ∧
    (t ∉ s.asc.ch.tags → s.asc.ch.life ≠ .closed →
      ∃ waiters, exec (.ascWait t) s = .next (asc { s.asc.ch with waiters := waiters }) ∧
        ∀ x, x ∈ waiters ↔ x = t ∨ x ∈ s.asc.ch.waiters)

/-! ### Counters -/

/-- 43_transceiver.md R290, R291, 30_encoding.md R104: reading and zeroing each counter, and the
reserved selects. -/
def Obligations.CounterAccess : Prop :=
  (∀ s : State,
    let shown (v : BitVec 64) : State :=
      { s with rtu := { s.rtu with
        ch := { s.rtu.ch with out := s.rtu.ch.out ++ [.value v.toNat] } } }
    exec (.rtuCnr .msg) s = .next (shown s.rtu.cntMsg) ∧
    exec (.rtuCnr .err) s = .next (shown s.rtu.cntErr) ∧
    exec (.rtuCnr .ovr) s = .next (shown s.rtu.cntOvr) ∧
    exec (.rtuCnz .msg) s = .next { s with rtu := { s.rtu with cntMsg := 0 } } ∧
    exec (.rtuCnz .err) s = .next { s with rtu := { s.rtu with cntErr := 0 } } ∧
    exec (.rtuCnz .ovr) s = .next { s with rtu := { s.rtu with cntOvr := 0 } }) ∧
  (∀ (c : Byte) (ws : List Word),
    let cnr : Word := 0x25000000 ||| c.setWidth 32
    let cnz : Word := 0x26000000 ||| c.setWidth 32
    (c = 0 → decode (cnr :: ws) = .ok (.rtuCnr .msg, ws) ∧
      decode (cnz :: ws) = .ok (.rtuCnz .msg, ws)) ∧
    (c = 1 → decode (cnr :: ws) = .ok (.rtuCnr .err, ws) ∧
      decode (cnz :: ws) = .ok (.rtuCnz .err, ws)) ∧
    (c = 2 → decode (cnr :: ws) = .ok (.rtuCnr .ovr, ws) ∧
      decode (cnz :: ws) = .ok (.rtuCnz .ovr, ws)) ∧
    (3 ≤ c.toNat → decode (cnr :: ws) = .error .reservedCounter ∧
      decode (cnz :: ws) = .error .reservedCounter))

/-- 10_state.md R37, 43_transceiver.md R292: only finalization and RTU.CNZ write a counter, and
finalization increments it with saturation. -/
def Obligations.CountersMoveOnlyAtFinalization : Prop :=
  ∀ (s t : State) (i : Instr), exec i s = .next t →
    let u := s.rtu
    let sat (v : BitVec 64) : BitVec 64 := BitVec.ofNat 64 (min (v.toNat + 1) (2 ^ 64 - 1))
    let clean : Prop := u.nok = false ∧ 4 ≤ u.buf.length ∧ crc16 u.buf = 0
    let ends : Prop := i = .rtuT35 ∧ u.st = .ctrlwait
    (t.rtu.cntMsg = u.cntMsg ∨ (i = .rtuCnz .msg ∧ t.rtu.cntMsg = 0) ∨
      (ends ∧ clean ∧ t.rtu.cntMsg = sat u.cntMsg)) ∧
    (t.rtu.cntErr = u.cntErr ∨ (i = .rtuCnz .err ∧ t.rtu.cntErr = 0) ∨
      (ends ∧ ¬clean ∧ t.rtu.cntErr = sat u.cntErr)) ∧
    (t.rtu.cntOvr = u.cntOvr ∨ (i = .rtuCnz .ovr ∧ t.rtu.cntOvr = 0) ∨
      (ends ∧ ¬clean ∧ (u.ovr = true ∨ u.ovf = true) ∧ t.rtu.cntOvr = sat u.cntOvr))

/-! ### Whole-machine rules -/

/-- 60_exceptions.md R330, 41_rtu_receiver.md R186: a FRAME is emitted only by an OPEN unit, in the
operation that validates the frame, once, and of the unit's own kind. -/
def Obligations.FramesOnlyFromTheValidatingOperation : Prop :=
  ∀ (s t : State) (i : Instr), exec i s = .next t →
    (∀ (events : List Event) (f : Frame),
      t.rtu.ch.out = s.rtu.ch.out ++ events → .frame f ∈ events →
      events = [.frame f] ∧ f.kind = .rtu ∧ s.rtu.ch.life = .opened ∧ i = .rtuT35 ∧
      s.rtu.st = .ctrlwait ∧ s.rtu.nok = false ∧ crc16 s.rtu.buf = 0) ∧
    (∀ (events : List Event) (f : Frame),
      t.asc.ch.out = s.asc.ch.out ++ events → .frame f ∈ events →
      events = [.frame f] ∧ f.ValidFor .ascii ∧ s.asc.ch.life = .opened ∧ s.asc.ast = .eof ∧
      s.asc.anok = false ∧ i = .ascRxc 0x0A true)

/-- 10_state.md R48: every output trace only grows. -/
def Obligations.TracesOnlyGrow : Prop :=
  ∀ (s t : State) (i : Instr), exec i s = .next t →
    s.crc.out <+: t.crc.out ∧ s.lrc.out <+: t.lrc.out ∧
    s.rtu.ch.out <+: t.rtu.ch.out ∧ s.asc.ch.out <+: t.asc.ch.out

/-- 20_memory.md R72, 60_exceptions.md R340: units share no state. An operation leaves every other
unit and the stream as they are, and what it does to its own unit depends on nothing else but the
model arguments and the free values. That two runs with the same number of draws made draw alike is the
model's choice (log 10, log 11). -/
def Obligations.UnitsShareNothing : Prop :=
  (∀ (s t : State) (i : Instr), exec i s = .next t →
    (unitOf i ≠ .crc → t.crc = s.crc) ∧ (unitOf i ≠ .lrc → t.lrc = s.lrc) ∧
    (unitOf i ≠ .rtu → t.rtu = s.rtu) ∧ (unitOf i ≠ .asc → t.asc = s.asc) ∧
    t.stream = s.stream ∧ t.params = s.params ∧ t.layer = s.layer) ∧
  (∀ (s s' : State) (i : Instr),
    s.params = s'.params → s.layer = s'.layer →
    (unitOf i = .crc → s.crc = s'.crc) → (unitOf i = .lrc → s.lrc = s'.lrc) →
    (unitOf i = .rtu → s.rtu = s'.rtu) → (unitOf i = .asc → s.asc = s'.asc) →
    (∀ t, exec i s = .next t → ∃ t', exec i s' = .next t' ∧
      (unitOf i = .crc → t.crc = t'.crc) ∧ (unitOf i = .lrc → t.lrc = t'.lrc) ∧
      (unitOf i = .rtu → t.rtu = t'.rtu) ∧ (unitOf i = .asc → t.asc = t'.asc)) ∧
    (∀ f, exec i s = .fault f → exec i s' = .fault f) ∧
    (∀ r, exec i s = .refused r → exec i s' = .refused r))

/-- 10_state.md R24, R39, 60_exceptions.md R335: no step writes a configuration, a model argument or
the layer. -/
def Obligations.ConfigurationIsNeverWritten : Prop :=
  ∀ s t : State, step s = .next t →
    t.rtu.cfg = s.rtu.cfg ∧ t.asc.cfg = s.asc.cfg ∧ t.params = s.params ∧ t.layer = s.layer

/-- 60_exceptions.md R321, which the spec marks as derived: in one operation a tag is completed at
most once; a completed tag is that of an outstanding request or of the request being made, and is
outstanding no more; a tag that is not completed stays outstanding, or becomes so by being
submitted. -/
def Obligations.RequestsCompleteExactlyOnce : Prop :=
  ∀ (s t : State) (i : Instr), Inv s → exec i s = .next t →
    ∀ (c c' : Channel) (submits : Option Tag),
      (c = s.rtu.ch ∧ c' = t.rtu.ch ∧ submits = rtuSubmits i) ∨
        (c = s.asc.ch ∧ c' = t.asc.ch ∧ submits = ascSubmits i) →
      ∃ events, c'.out = c.out ++ events ∧
        ∀ x : Tag,
          completions x events ≤ 1 ∧
          (completions x events = 1 → (x ∈ c.tags ∨ submits = some x) ∧ x ∉ c'.tags) ∧
          (completions x events = 0 → (x ∈ c'.tags ↔ x ∈ c.tags ∨ submits = some x))

/-- 60_exceptions.md R334, which the spec marks as derived: from every state of the invariant a run
ends at its silence in IDLE, ready for a clean frame, and an ASCII frame in progress is abandoned at
the next ':'. -/
def Obligations.ReceiversRecover : Prop :=
  ∀ s : State, Inv s →
    (s.layer = .untimed → s.rtu.ch.life = .opened → s.rtu.st = .reception ∨ s.rtu.st = .ctrlwait →
      ∃ t, execAll [.rtuT15, .rtuT35] s = .next t ∧ t.rtu.st = .idle ∧ t.rtu.ch.life = .opened ∧
        t.rtu.buf = [] ∧ t.rtu.nok = false ∧ t.rtu.ovr = false ∧ t.rtu.ovf = false) ∧
    (s.asc.ch.life = .opened → ∀ valid,
      exec (.ascRxc 0x3A valid) s = .next { s with
        asc := { s.asc with abuf := [0x3A], anok := !valid, ast := .append } })

/-! ### The ASCII receiver -/

/-- 42_ascii_receiver.md R220, R221, R223 to R227, R229, R230: every character but the LF that ends a
frame. That an LF in APPEND is an ordinary byte is marked by the spec as derived (R226). -/
def Obligations.AsciiReceptorTransitions : Prop :=
  ∀ (s : State) (b : Byte) (valid : Bool),
    let u := s.asc
    let fits := u.abuf.length < s.params.asciiRxCap
    let started : State :=
      { s with asc := { u with abuf := [0x3A], anok := !valid, ast := .append } }
    let appended (next : AscState) : State :=
      { s with
        asc := { u with
          abuf := if fits then u.abuf ++ [b] else u.abuf
          anok := u.anok || !decide fits || !valid
          ast := next } }
    (u.ch.life ≠ .opened → exec (.ascRxc b valid) s = .next s) ∧
    (u.ch.life = .opened →
      (b = 0x3A → exec (.ascRxc b valid) s = .next started) ∧
      (b ≠ 0x3A → u.ast = .idle → exec (.ascRxc b valid) s = .next s) ∧
      (b = 0x0D → u.ast = .append ∨ u.ast = .eof →
        exec (.ascRxc b valid) s = .next (appended .eof)) ∧
      (b ≠ 0x3A → b ≠ 0x0D → u.ast = .append →
        exec (.ascRxc b valid) s = .next (appended .append)) ∧
      (b ≠ 0x3A → b ≠ 0x0D → b ≠ 0x0A → u.ast = .eof →
        exec (.ascRxc b valid) s = .next (appended .append)))

/-- 42_ascii_receiver.md R228, R232: the LF that ends a frame delivers what the buffer decodes to
(Obligations.FramesRoundTrip and Obligations.AsciiDecodeAcceptsOnlyEncodings say what that is). -/
def Obligations.LineFeedDeliversTheFrame : Prop :=
  ∀ (s : State) (valid : Bool), s.asc.ch.life = .opened → s.asc.ast = .eof →
    let u := s.asc
    let fits := u.abuf.length < s.params.asciiRxCap
    let decoded := asciiDecode s.params (if fits then u.abuf ++ [0x0A] else u.abuf)
      (u.anok || !decide fits || !valid)
    ∃ shown,
      (∀ f, decoded = .ok f → shown = [.frame f]) ∧ ((∀ f, decoded ≠ .ok f) → shown = []) ∧
      exec (.ascRxc 0x0A valid) s = .next { s with
        asc := { u with
          ch := { u.ch with out := u.ch.out ++ shown }
          ast := .idle, abuf := [], anok := false } }

/-- 42_ascii_receiver.md R235, which the spec marks as derived: the characters of an encoded frame,
all valid, given to an OPEN unit in IDLE, emit exactly that frame; with one hex character of the
body changed to another they emit nothing. -/
def Obligations.EncodedFrameIsReceived : Prop :=
  ∀ (s : State) (f : Frame), Inv s → f.ValidFor .ascii →
    s.asc.ch.life = .opened → s.asc.ast = .idle →
    execAll (ascCharacters (asciiEncode f)) s = .next { s with
      asc := { s.asc with ch := { s.asc.ch with out := s.asc.ch.out ++ [.frame f] } } } ∧
    ∀ (j : Nat) (c : Byte), 1 ≤ j → j + 2 < (asciiEncode f).length → c ∈ hexChars →
      (asciiEncode f).getD j 0 ≠ c →
      execAll (ascCharacters ((asciiEncode f).set j c)) s = .next s
end

