-- ==== Sys2Proof/Laws/State.lean ====
section
/-! SUPPORT. What each named update does to each field, so that no proof unfolds a record update. -/

namespace Sys2Proof.Machine

/-! ### The machine (20_memory.md R72) -/

@[simp] theorem State.setCrc_crc (s : State) (u : CrcUnit) : (s.setCrc u).crc = u := rfl
@[simp] theorem State.setCrc_lrc (s : State) (u : CrcUnit) : (s.setCrc u).lrc = s.lrc := rfl
@[simp] theorem State.setCrc_rtu (s : State) (u : CrcUnit) : (s.setCrc u).rtu = s.rtu := rfl
@[simp] theorem State.setCrc_asc (s : State) (u : CrcUnit) : (s.setCrc u).asc = s.asc := rfl
@[simp] theorem State.setCrc_stream (s : State) (u : CrcUnit) :
    (s.setCrc u).stream = s.stream := rfl
@[simp] theorem State.setCrc_params (s : State) (u : CrcUnit) :
    (s.setCrc u).params = s.params := rfl
@[simp] theorem State.setCrc_layer (s : State) (u : CrcUnit) : (s.setCrc u).layer = s.layer := rfl

@[simp] theorem State.setLrc_crc (s : State) (u : LrcUnit) : (s.setLrc u).crc = s.crc := rfl
@[simp] theorem State.setLrc_lrc (s : State) (u : LrcUnit) : (s.setLrc u).lrc = u := rfl
@[simp] theorem State.setLrc_rtu (s : State) (u : LrcUnit) : (s.setLrc u).rtu = s.rtu := rfl
@[simp] theorem State.setLrc_asc (s : State) (u : LrcUnit) : (s.setLrc u).asc = s.asc := rfl
@[simp] theorem State.setLrc_stream (s : State) (u : LrcUnit) :
    (s.setLrc u).stream = s.stream := rfl
@[simp] theorem State.setLrc_params (s : State) (u : LrcUnit) :
    (s.setLrc u).params = s.params := rfl
@[simp] theorem State.setLrc_layer (s : State) (u : LrcUnit) : (s.setLrc u).layer = s.layer := rfl

@[simp] theorem State.setRtu_crc (s : State) (u : RtuUnit) : (s.setRtu u).crc = s.crc := rfl
@[simp] theorem State.setRtu_lrc (s : State) (u : RtuUnit) : (s.setRtu u).lrc = s.lrc := rfl
@[simp] theorem State.setRtu_rtu (s : State) (u : RtuUnit) : (s.setRtu u).rtu = u := rfl
@[simp] theorem State.setRtu_asc (s : State) (u : RtuUnit) : (s.setRtu u).asc = s.asc := rfl
@[simp] theorem State.setRtu_stream (s : State) (u : RtuUnit) :
    (s.setRtu u).stream = s.stream := rfl
@[simp] theorem State.setRtu_params (s : State) (u : RtuUnit) :
    (s.setRtu u).params = s.params := rfl
@[simp] theorem State.setRtu_layer (s : State) (u : RtuUnit) : (s.setRtu u).layer = s.layer := rfl

@[simp] theorem State.setAsc_crc (s : State) (u : AscUnit) : (s.setAsc u).crc = s.crc := rfl
@[simp] theorem State.setAsc_lrc (s : State) (u : AscUnit) : (s.setAsc u).lrc = s.lrc := rfl
@[simp] theorem State.setAsc_rtu (s : State) (u : AscUnit) : (s.setAsc u).rtu = s.rtu := rfl
@[simp] theorem State.setAsc_asc (s : State) (u : AscUnit) : (s.setAsc u).asc = u := rfl
@[simp] theorem State.setAsc_stream (s : State) (u : AscUnit) :
    (s.setAsc u).stream = s.stream := rfl
@[simp] theorem State.setAsc_params (s : State) (u : AscUnit) :
    (s.setAsc u).params = s.params := rfl
@[simp] theorem State.setAsc_layer (s : State) (u : AscUnit) : (s.setAsc u).layer = s.layer := rfl

@[simp] theorem State.keepLast_crc (s : State) (n : Nat) : (s.keepLast n).crc = s.crc := rfl
@[simp] theorem State.keepLast_lrc (s : State) (n : Nat) : (s.keepLast n).lrc = s.lrc := rfl
@[simp] theorem State.keepLast_rtu (s : State) (n : Nat) : (s.keepLast n).rtu = s.rtu := rfl
@[simp] theorem State.keepLast_asc (s : State) (n : Nat) : (s.keepLast n).asc = s.asc := rfl
@[simp] theorem State.keepLast_stream (s : State) (n : Nat) :
    (s.keepLast n).stream = s.stream.drop (s.stream.length - n) := rfl
@[simp] theorem State.keepLast_params (s : State) (n : Nat) :
    (s.keepLast n).params = s.params := rfl
@[simp] theorem State.keepLast_layer (s : State) (n : Nat) : (s.keepLast n).layer = s.layer := rfl

@[simp] theorem State.deliver_crc (s : State) (ws : List Word) : (s.deliver ws).crc = s.crc := rfl
@[simp] theorem State.deliver_lrc (s : State) (ws : List Word) : (s.deliver ws).lrc = s.lrc := rfl
@[simp] theorem State.deliver_rtu (s : State) (ws : List Word) : (s.deliver ws).rtu = s.rtu := rfl
@[simp] theorem State.deliver_asc (s : State) (ws : List Word) : (s.deliver ws).asc = s.asc := rfl
@[simp] theorem State.deliver_stream (s : State) (ws : List Word) :
    (s.deliver ws).stream = ws.map (⟨s.admissibleStamp, ·⟩) ++ s.stream := rfl
@[simp] theorem State.deliver_params (s : State) (ws : List Word) :
    (s.deliver ws).params = s.params := rfl
@[simp] theorem State.deliver_layer (s : State) (ws : List Word) :
    (s.deliver ws).layer = s.layer := rfl

/-! ### The engines -/

@[simp] theorem CrcUnit.emit_acc (u : CrcUnit) (e : Event) : (u.emit e).acc = u.acc := rfl
@[simp] theorem CrcUnit.emit_out (u : CrcUnit) (e : Event) : (u.emit e).out = u.out ++ [e] := rfl

@[simp] theorem LrcUnit.emit_sum (u : LrcUnit) (e : Event) : (u.emit e).sum = u.sum := rfl
@[simp] theorem LrcUnit.emit_out (u : LrcUnit) (e : Event) : (u.emit e).out = u.out ++ [e] := rfl

/-! ### The transmit side of a transceiver -/

@[simp] theorem Channel.emitAll_life (c : Channel) (es : List Event) :
    (c.emitAll es).life = c.life := rfl
@[simp] theorem Channel.emitAll_txreg (c : Channel) (es : List Event) :
    (c.emitAll es).txreg = c.txreg := rfl
@[simp] theorem Channel.emitAll_hold (c : Channel) (es : List Event) :
    (c.emitAll es).hold = c.hold := rfl
@[simp] theorem Channel.emitAll_waiters (c : Channel) (es : List Event) :
    (c.emitAll es).waiters = c.waiters := rfl
@[simp] theorem Channel.emitAll_disposed (c : Channel) (es : List Event) :
    (c.emitAll es).disposed = c.disposed := rfl
@[simp] theorem Channel.emitAll_out (c : Channel) (es : List Event) :
    (c.emitAll es).out = c.out ++ es := rfl
@[simp] theorem Channel.emitAll_draws (c : Channel) (es : List Event) :
    (c.emitAll es).draws = c.draws := rfl
@[simp] theorem Channel.emitAll_linePrefixes (c : Channel) (es : List Event) :
    (c.emitAll es).linePrefixes = c.linePrefixes := rfl

@[simp] theorem Channel.emit_life (c : Channel) (e : Event) : (c.emit e).life = c.life := rfl
@[simp] theorem Channel.emit_txreg (c : Channel) (e : Event) : (c.emit e).txreg = c.txreg := rfl
@[simp] theorem Channel.emit_hold (c : Channel) (e : Event) : (c.emit e).hold = c.hold := rfl
@[simp] theorem Channel.emit_waiters (c : Channel) (e : Event) :
    (c.emit e).waiters = c.waiters := rfl
@[simp] theorem Channel.emit_disposed (c : Channel) (e : Event) :
    (c.emit e).disposed = c.disposed := rfl
@[simp] theorem Channel.emit_out (c : Channel) (e : Event) : (c.emit e).out = c.out ++ [e] := rfl
@[simp] theorem Channel.emit_draws (c : Channel) (e : Event) : (c.emit e).draws = c.draws := rfl
@[simp] theorem Channel.emit_linePrefixes (c : Channel) (e : Event) :
    (c.emit e).linePrefixes = c.linePrefixes := rfl

@[simp] theorem Channel.complete_life (c : Channel) (t : Tag) (code : CompletionCode) :
    (c.complete t code).life = c.life := rfl
@[simp] theorem Channel.complete_txreg (c : Channel) (t : Tag) (code : CompletionCode) :
    (c.complete t code).txreg = c.txreg := rfl
@[simp] theorem Channel.complete_hold (c : Channel) (t : Tag) (code : CompletionCode) :
    (c.complete t code).hold = c.hold := rfl
@[simp] theorem Channel.complete_waiters (c : Channel) (t : Tag) (code : CompletionCode) :
    (c.complete t code).waiters = c.waiters := rfl
@[simp] theorem Channel.complete_disposed (c : Channel) (t : Tag) (code : CompletionCode) :
    (c.complete t code).disposed = c.disposed := rfl
@[simp] theorem Channel.complete_out (c : Channel) (t : Tag) (code : CompletionCode) :
    (c.complete t code).out = c.out ++ [.result t code] := rfl
@[simp] theorem Channel.complete_draws (c : Channel) (t : Tag) (code : CompletionCode) :
    (c.complete t code).draws = c.draws := rfl
@[simp] theorem Channel.complete_linePrefixes (c : Channel) (t : Tag) (code : CompletionCode) :
    (c.complete t code).linePrefixes = c.linePrefixes := rfl

@[simp] theorem Channel.startWrite_life (c : Channel) (slot : TxSlot) (raw : List Byte) :
    (c.startWrite slot raw).life = c.life := rfl
@[simp] theorem Channel.startWrite_txreg (c : Channel) (slot : TxSlot) (raw : List Byte) :
    (c.startWrite slot raw).txreg = some { slot with started := true } := rfl
@[simp] theorem Channel.startWrite_hold (c : Channel) (slot : TxSlot) (raw : List Byte) :
    (c.startWrite slot raw).hold = c.hold := rfl
@[simp] theorem Channel.startWrite_waiters (c : Channel) (slot : TxSlot) (raw : List Byte) :
    (c.startWrite slot raw).waiters = c.waiters := rfl
@[simp] theorem Channel.startWrite_disposed (c : Channel) (slot : TxSlot) (raw : List Byte) :
    (c.startWrite slot raw).disposed = c.disposed := rfl
@[simp] theorem Channel.startWrite_out (c : Channel) (slot : TxSlot) (raw : List Byte) :
    (c.startWrite slot raw).out = c.out ++ [.portTx raw] := rfl
@[simp] theorem Channel.startWrite_draws (c : Channel) (slot : TxSlot) (raw : List Byte) :
    (c.startWrite slot raw).draws = c.draws := rfl
@[simp] theorem Channel.startWrite_linePrefixes (c : Channel) (slot : TxSlot) (raw : List Byte) :
    (c.startWrite slot raw).linePrefixes = c.linePrefixes := rfl

@[simp] theorem Channel.finishWrite_life (c : Channel) (slot : TxSlot) (failed : Bool) :
    (c.finishWrite slot failed).life = c.life := rfl
@[simp] theorem Channel.finishWrite_txreg (c : Channel) (slot : TxSlot) (failed : Bool) :
    (c.finishWrite slot failed).txreg = none := rfl
@[simp] theorem Channel.finishWrite_hold (c : Channel) (slot : TxSlot) (failed : Bool) :
    (c.finishWrite slot failed).hold = c.hold := rfl
@[simp] theorem Channel.finishWrite_waiters (c : Channel) (slot : TxSlot) (failed : Bool) :
    (c.finishWrite slot failed).waiters = c.waiters := rfl
@[simp] theorem Channel.finishWrite_disposed (c : Channel) (slot : TxSlot) (failed : Bool) :
    (c.finishWrite slot failed).disposed = c.disposed := rfl
@[simp] theorem Channel.finishWrite_out (c : Channel) (slot : TxSlot) (failed : Bool) :
    (c.finishWrite slot failed).out = c.out ++ [.result slot.tag (writeCode failed)] := rfl
@[simp] theorem Channel.finishWrite_draws (c : Channel) (slot : TxSlot) (failed : Bool) :
    (c.finishWrite slot failed).draws = c.draws := rfl
@[simp] theorem Channel.finishWrite_linePrefixes (c : Channel) (slot : TxSlot) (failed : Bool) :
    (c.finishWrite slot failed).linePrefixes = c.linePrefixes := rfl

@[simp] theorem Channel.failPending_life (c : Channel) : (c.failPending).life = c.life := rfl
@[simp] theorem Channel.failPending_txreg (c : Channel) :
    (c.failPending).txreg = if c.unstarted then none else c.txreg := rfl
@[simp] theorem Channel.failPending_hold (c : Channel) : (c.failPending).hold = [] := rfl
@[simp] theorem Channel.failPending_waiters (c : Channel) :
    (c.failPending).waiters = c.waiters := rfl
@[simp] theorem Channel.failPending_disposed (c : Channel) :
    (c.failPending).disposed = c.disposed := rfl
@[simp] theorem Channel.failPending_out (c : Channel) :
    (c.failPending).out = c.out ++ c.pendingTags.map (.result · .invalidOperation) := rfl
@[simp] theorem Channel.failPending_draws (c : Channel) : (c.failPending).draws = c.draws := rfl
@[simp] theorem Channel.failPending_linePrefixes (c : Channel) :
    (c.failPending).linePrefixes = c.linePrefixes := rfl

@[simp] theorem Channel.completeClose_life (c : Channel) : (c.completeClose).life = .closed := rfl
@[simp] theorem Channel.completeClose_txreg (c : Channel) : (c.completeClose).txreg = c.txreg := rfl
@[simp] theorem Channel.completeClose_hold (c : Channel) : (c.completeClose).hold = c.hold := rfl
@[simp] theorem Channel.completeClose_waiters (c : Channel) : (c.completeClose).waiters = [] := rfl
@[simp] theorem Channel.completeClose_disposed (c : Channel) :
    (c.completeClose).disposed = true := rfl
@[simp] theorem Channel.completeClose_out (c : Channel) :
    (c.completeClose).out =
      c.out ++ (if c.disposed then [] else [.portDispose]) ++ c.waiters.map (.result · .ok) := rfl
@[simp] theorem Channel.completeClose_draws (c : Channel) : (c.completeClose).draws = c.draws := rfl
@[simp] theorem Channel.completeClose_linePrefixes (c : Channel) :
    (c.completeClose).linePrefixes = c.linePrefixes := rfl

@[simp] theorem Channel.cancelHeld_life (c : Channel) (t : Tag) :
    (c.cancelHeld t).life = c.life := rfl
@[simp] theorem Channel.cancelHeld_txreg (c : Channel) (t : Tag) :
    (c.cancelHeld t).txreg = c.txreg := rfl
@[simp] theorem Channel.cancelHeld_hold (c : Channel) (t : Tag) :
    (c.cancelHeld t).hold = c.hold.filter (·.tag != t) := rfl
@[simp] theorem Channel.cancelHeld_waiters (c : Channel) (t : Tag) :
    (c.cancelHeld t).waiters = c.waiters := rfl
@[simp] theorem Channel.cancelHeld_disposed (c : Channel) (t : Tag) :
    (c.cancelHeld t).disposed = c.disposed := rfl
@[simp] theorem Channel.cancelHeld_out (c : Channel) (t : Tag) :
    (c.cancelHeld t).out = c.out ++ [.result t .operationCancelled] := rfl
@[simp] theorem Channel.cancelHeld_draws (c : Channel) (t : Tag) :
    (c.cancelHeld t).draws = c.draws := rfl
@[simp] theorem Channel.cancelHeld_linePrefixes (c : Channel) (t : Tag) :
    (c.cancelHeld t).linePrefixes = c.linePrefixes := rfl

@[simp] theorem Channel.cancelWaiter_life (c : Channel) (t : Tag) :
    (c.cancelWaiter t).life = c.life := rfl
@[simp] theorem Channel.cancelWaiter_txreg (c : Channel) (t : Tag) :
    (c.cancelWaiter t).txreg = c.txreg := rfl
@[simp] theorem Channel.cancelWaiter_hold (c : Channel) (t : Tag) :
    (c.cancelWaiter t).hold = c.hold := rfl
@[simp] theorem Channel.cancelWaiter_waiters (c : Channel) (t : Tag) :
    (c.cancelWaiter t).waiters = c.waiters.filter (· != t) := rfl
@[simp] theorem Channel.cancelWaiter_disposed (c : Channel) (t : Tag) :
    (c.cancelWaiter t).disposed = c.disposed := rfl
@[simp] theorem Channel.cancelWaiter_out (c : Channel) (t : Tag) :
    (c.cancelWaiter t).out = c.out ++ [.result t .operationCancelled] := rfl
@[simp] theorem Channel.cancelWaiter_draws (c : Channel) (t : Tag) :
    (c.cancelWaiter t).draws = c.draws := rfl
@[simp] theorem Channel.cancelWaiter_linePrefixes (c : Channel) (t : Tag) :
    (c.cancelWaiter t).linePrefixes = c.linePrefixes := rfl

@[simp] theorem Channel.abortWrite_out (c : Channel) (own : FrameKind) (slot : TxSlot)
    (code : CompletionCode) :
    (c.abortWrite own slot code).out = c.out ++ [.portTxAbort] ++ [.result slot.tag code] := rfl
@[simp] theorem Channel.abortWrite_life (c : Channel) (own : FrameKind) (slot : TxSlot)
    (code : CompletionCode) :
    (c.abortWrite own slot code).life = c.life := rfl
@[simp] theorem Channel.abortWrite_txreg (c : Channel) (own : FrameKind) (slot : TxSlot)
    (code : CompletionCode) :
    (c.abortWrite own slot code).txreg = none := rfl
@[simp] theorem Channel.abortWrite_hold (c : Channel) (own : FrameKind) (slot : TxSlot)
    (code : CompletionCode) :
    (c.abortWrite own slot code).hold = c.hold := rfl
@[simp] theorem Channel.abortWrite_waiters (c : Channel) (own : FrameKind) (slot : TxSlot)
    (code : CompletionCode) :
    (c.abortWrite own slot code).waiters = c.waiters := rfl
@[simp] theorem Channel.abortWrite_disposed (c : Channel) (own : FrameKind) (slot : TxSlot)
    (code : CompletionCode) :
    (c.abortWrite own slot code).disposed = c.disposed := rfl
@[simp] theorem Channel.abortWrite_draws (c : Channel) (own : FrameKind) (slot : TxSlot)
    (code : CompletionCode) :
    (c.abortWrite own slot code).draws = c.draws + 1 := rfl
@[simp] theorem Channel.abortWrite_linePrefixes (c : Channel) (own : FrameKind) (slot : TxSlot)
    (code : CompletionCode) :
    (c.abortWrite own slot code).linePrefixes =
      c.linePrefixes ++ [drawnPrefix own c.draws (rawFrame slot.frame)] := rfl

/-! ### The RTU transceiver -/

@[simp] theorem RtuUnit.setCh_cfg (u : RtuUnit) (c : Channel) : (u.setCh c).cfg = u.cfg := rfl
@[simp] theorem RtuUnit.setCh_ch (u : RtuUnit) (c : Channel) : (u.setCh c).ch = c := rfl
@[simp] theorem RtuUnit.setCh_st (u : RtuUnit) (c : Channel) : (u.setCh c).st = u.st := rfl
@[simp] theorem RtuUnit.setCh_eph (u : RtuUnit) (c : Channel) : (u.setCh c).eph = u.eph := rfl
@[simp] theorem RtuUnit.setCh_buf (u : RtuUnit) (c : Channel) : (u.setCh c).buf = u.buf := rfl
@[simp] theorem RtuUnit.setCh_nok (u : RtuUnit) (c : Channel) : (u.setCh c).nok = u.nok := rfl
@[simp] theorem RtuUnit.setCh_ovr (u : RtuUnit) (c : Channel) : (u.setCh c).ovr = u.ovr := rfl
@[simp] theorem RtuUnit.setCh_ovf (u : RtuUnit) (c : Channel) : (u.setCh c).ovf = u.ovf := rfl
@[simp] theorem RtuUnit.setCh_arm15 (u : RtuUnit) (c : Channel) : (u.setCh c).arm15 = u.arm15 := rfl
@[simp] theorem RtuUnit.setCh_arm35 (u : RtuUnit) (c : Channel) : (u.setCh c).arm35 = u.arm35 := rfl
@[simp] theorem RtuUnit.setCh_d15 (u : RtuUnit) (c : Channel) : (u.setCh c).d15 = u.d15 := rfl
@[simp] theorem RtuUnit.setCh_d35 (u : RtuUnit) (c : Channel) : (u.setCh c).d35 = u.d35 := rfl
@[simp] theorem RtuUnit.setCh_cntMsg (u : RtuUnit) (c : Channel) :
    (u.setCh c).cntMsg = u.cntMsg := rfl
@[simp] theorem RtuUnit.setCh_cntErr (u : RtuUnit) (c : Channel) :
    (u.setCh c).cntErr = u.cntErr := rfl
@[simp] theorem RtuUnit.setCh_cntOvr (u : RtuUnit) (c : Channel) :
    (u.setCh c).cntOvr = u.cntOvr := rfl
@[simp] theorem RtuUnit.setCh_now (u : RtuUnit) (c : Channel) : (u.setCh c).now = u.now := rfl

@[simp] theorem RtuUnit.startT15_cfg (u : RtuUnit) : (u.startT15).cfg = u.cfg := rfl
@[simp] theorem RtuUnit.startT15_ch (u : RtuUnit) : (u.startT15).ch = u.ch := rfl
@[simp] theorem RtuUnit.startT15_st (u : RtuUnit) : (u.startT15).st = u.st := rfl
@[simp] theorem RtuUnit.startT15_eph (u : RtuUnit) : (u.startT15).eph = u.eph := rfl
@[simp] theorem RtuUnit.startT15_buf (u : RtuUnit) : (u.startT15).buf = u.buf := rfl
@[simp] theorem RtuUnit.startT15_nok (u : RtuUnit) : (u.startT15).nok = u.nok := rfl
@[simp] theorem RtuUnit.startT15_ovr (u : RtuUnit) : (u.startT15).ovr = u.ovr := rfl
@[simp] theorem RtuUnit.startT15_ovf (u : RtuUnit) : (u.startT15).ovf = u.ovf := rfl
@[simp] theorem RtuUnit.startT15_arm15 (u : RtuUnit) : (u.startT15).arm15 = true := rfl
@[simp] theorem RtuUnit.startT15_arm35 (u : RtuUnit) : (u.startT15).arm35 = u.arm35 := rfl
@[simp] theorem RtuUnit.startT15_d15 (u : RtuUnit) : (u.startT15).d15 = u.now + t15 u.cfg := rfl
@[simp] theorem RtuUnit.startT15_d35 (u : RtuUnit) : (u.startT15).d35 = u.d35 := rfl
@[simp] theorem RtuUnit.startT15_cntMsg (u : RtuUnit) : (u.startT15).cntMsg = u.cntMsg := rfl
@[simp] theorem RtuUnit.startT15_cntErr (u : RtuUnit) : (u.startT15).cntErr = u.cntErr := rfl
@[simp] theorem RtuUnit.startT15_cntOvr (u : RtuUnit) : (u.startT15).cntOvr = u.cntOvr := rfl
@[simp] theorem RtuUnit.startT15_now (u : RtuUnit) : (u.startT15).now = u.now := rfl

@[simp] theorem RtuUnit.startT35_cfg (u : RtuUnit) : (u.startT35).cfg = u.cfg := rfl
@[simp] theorem RtuUnit.startT35_ch (u : RtuUnit) : (u.startT35).ch = u.ch := rfl
@[simp] theorem RtuUnit.startT35_st (u : RtuUnit) : (u.startT35).st = u.st := rfl
@[simp] theorem RtuUnit.startT35_eph (u : RtuUnit) : (u.startT35).eph = u.eph := rfl
@[simp] theorem RtuUnit.startT35_buf (u : RtuUnit) : (u.startT35).buf = u.buf := rfl
@[simp] theorem RtuUnit.startT35_nok (u : RtuUnit) : (u.startT35).nok = u.nok := rfl
@[simp] theorem RtuUnit.startT35_ovr (u : RtuUnit) : (u.startT35).ovr = u.ovr := rfl
@[simp] theorem RtuUnit.startT35_ovf (u : RtuUnit) : (u.startT35).ovf = u.ovf := rfl
@[simp] theorem RtuUnit.startT35_arm15 (u : RtuUnit) : (u.startT35).arm15 = u.arm15 := rfl
@[simp] theorem RtuUnit.startT35_arm35 (u : RtuUnit) : (u.startT35).arm35 = true := rfl
@[simp] theorem RtuUnit.startT35_d15 (u : RtuUnit) : (u.startT35).d15 = u.d15 := rfl
@[simp] theorem RtuUnit.startT35_d35 (u : RtuUnit) : (u.startT35).d35 = u.now + t35 u.cfg := rfl
@[simp] theorem RtuUnit.startT35_cntMsg (u : RtuUnit) : (u.startT35).cntMsg = u.cntMsg := rfl
@[simp] theorem RtuUnit.startT35_cntErr (u : RtuUnit) : (u.startT35).cntErr = u.cntErr := rfl
@[simp] theorem RtuUnit.startT35_cntOvr (u : RtuUnit) : (u.startT35).cntOvr = u.cntOvr := rfl
@[simp] theorem RtuUnit.startT35_now (u : RtuUnit) : (u.startT35).now = u.now := rfl

@[simp] theorem RtuUnit.completeClose_cfg (u : RtuUnit) : (u.completeClose).cfg = u.cfg := rfl
@[simp] theorem RtuUnit.completeClose_ch (u : RtuUnit) :
    (u.completeClose).ch = u.ch.completeClose := rfl
@[simp] theorem RtuUnit.completeClose_st (u : RtuUnit) : (u.completeClose).st = .idle := rfl
@[simp] theorem RtuUnit.completeClose_eph (u : RtuUnit) : (u.completeClose).eph = .tx := rfl
@[simp] theorem RtuUnit.completeClose_buf (u : RtuUnit) : (u.completeClose).buf = [] := rfl
@[simp] theorem RtuUnit.completeClose_nok (u : RtuUnit) : (u.completeClose).nok = false := rfl
@[simp] theorem RtuUnit.completeClose_ovr (u : RtuUnit) : (u.completeClose).ovr = false := rfl
@[simp] theorem RtuUnit.completeClose_ovf (u : RtuUnit) : (u.completeClose).ovf = false := rfl
@[simp] theorem RtuUnit.completeClose_arm15 (u : RtuUnit) : (u.completeClose).arm15 = false := rfl
@[simp] theorem RtuUnit.completeClose_arm35 (u : RtuUnit) : (u.completeClose).arm35 = false := rfl
@[simp] theorem RtuUnit.completeClose_d15 (u : RtuUnit) : (u.completeClose).d15 = u.d15 := rfl
@[simp] theorem RtuUnit.completeClose_d35 (u : RtuUnit) : (u.completeClose).d35 = u.d35 := rfl
@[simp] theorem RtuUnit.completeClose_cntMsg (u : RtuUnit) :
    (u.completeClose).cntMsg = u.cntMsg := rfl
@[simp] theorem RtuUnit.completeClose_cntErr (u : RtuUnit) :
    (u.completeClose).cntErr = u.cntErr := rfl
@[simp] theorem RtuUnit.completeClose_cntOvr (u : RtuUnit) :
    (u.completeClose).cntOvr = u.cntOvr := rfl
@[simp] theorem RtuUnit.completeClose_now (u : RtuUnit) : (u.completeClose).now = u.now := rfl

/-! ### The ASCII transceiver -/

@[simp] theorem AscUnit.setCh_cfg (u : AscUnit) (c : Channel) : (u.setCh c).cfg = u.cfg := rfl
@[simp] theorem AscUnit.setCh_ch (u : AscUnit) (c : Channel) : (u.setCh c).ch = c := rfl
@[simp] theorem AscUnit.setCh_ast (u : AscUnit) (c : Channel) : (u.setCh c).ast = u.ast := rfl
@[simp] theorem AscUnit.setCh_abuf (u : AscUnit) (c : Channel) : (u.setCh c).abuf = u.abuf := rfl
@[simp] theorem AscUnit.setCh_anok (u : AscUnit) (c : Channel) : (u.setCh c).anok = u.anok := rfl

@[simp] theorem AscUnit.completeClose_cfg (u : AscUnit) : (u.completeClose).cfg = u.cfg := rfl
@[simp] theorem AscUnit.completeClose_ch (u : AscUnit) :
    (u.completeClose).ch = u.ch.completeClose := rfl
@[simp] theorem AscUnit.completeClose_ast (u : AscUnit) : (u.completeClose).ast = .idle := rfl
@[simp] theorem AscUnit.completeClose_abuf (u : AscUnit) : (u.completeClose).abuf = [] := rfl
@[simp] theorem AscUnit.completeClose_anok (u : AscUnit) : (u.completeClose).anok = false := rfl

/-! ### The clock (41_rtu_receiver.md R190) -/

@[simp] theorem State.clocked_crc (s : State) (i : Instr) (τ : Nat) :
    (s.clocked i τ).crc = s.crc := by unfold State.clocked; split <;> rfl
@[simp] theorem State.clocked_lrc (s : State) (i : Instr) (τ : Nat) :
    (s.clocked i τ).lrc = s.lrc := by unfold State.clocked; split <;> rfl
@[simp] theorem State.clocked_asc (s : State) (i : Instr) (τ : Nat) :
    (s.clocked i τ).asc = s.asc := by unfold State.clocked; split <;> rfl
@[simp] theorem State.clocked_stream (s : State) (i : Instr) (τ : Nat) :
    (s.clocked i τ).stream = s.stream := by unfold State.clocked; split <;> rfl
@[simp] theorem State.clocked_params (s : State) (i : Instr) (τ : Nat) :
    (s.clocked i τ).params = s.params := by unfold State.clocked; split <;> rfl
@[simp] theorem State.clocked_layer (s : State) (i : Instr) (τ : Nat) :
    (s.clocked i τ).layer = s.layer := by unfold State.clocked; split <;> rfl
theorem State.clocked_rtu (s : State) (i : Instr) (τ : Nat) :
    (s.clocked i τ).rtu = if unitOf i = .rtu then { s.rtu with now := τ } else s.rtu := by
  unfold State.clocked; split <;> rfl

end Sys2Proof.Machine
end

