-- ==== Sys2Proof/Laws/Channel.lean ====
section
/-! SUPPORT. What the shared operations of the transmit side do: the two sets of requests stay
ascending, and each operation keeps the channel invariant (10_state.md R45, R46). -/

namespace Sys2Proof.Machine

/-! ### The two sets (log 14) -/

/-- Membership after an insertion. -/
@[simp] theorem mem_insertTag {x t : Tag} {l : List Tag} : x ∈ insertTag t l ↔ x = t ∨ x ∈ l := by
  induction l with
  | nil => simp [insertTag]
  | cons y ys ih =>
    simp only [insertTag]
    split_ifs <;> simp_all
    tauto

/-- An insertion keeps a set of tags ascending. -/
theorem insertTag_ascending {t : Tag} {l : List Tag} (h : l.Pairwise (fun a b => a.toNat < b.toNat)) :
    (insertTag t l).Pairwise (fun a b => a.toNat < b.toNat) := by
  induction l with
  | nil => simp [insertTag]
  | cons y ys ih =>
    have hne : t ≠ y → t.toNat ≠ y.toNat := fun hn he => hn (BitVec.eq_of_toNat_eq he)
    simp only [insertTag]
    split_ifs with h1 h2
    · simp only [List.pairwise_cons] at h ⊢
      exact ⟨by simpa using ⟨h1, fun a ha => h1.trans (h.1 a ha)⟩, h⟩
    · exact h
    · simp only [List.pairwise_cons] at h ⊢
      refine ⟨fun a ha => ?_, ih h.2⟩
      rcases mem_insertTag.1 ha with rfl | ha
      · have := hne h2; omega
      · exact h.1 a ha

/-- Membership after an insertion. -/
@[simp] theorem mem_insertSubmission {x h : Submission} {l : List Submission} :
    x ∈ insertSubmission h l ↔ x = h ∨ x ∈ l := by
  induction l with
  | nil => simp [insertSubmission]
  | cons y ys ih =>
    simp only [insertSubmission]
    split_ifs <;> simp_all
    tauto

/-- An insertion under a new tag keeps a set of submissions ascending by tag. -/
theorem insertSubmission_ascending {h : Submission} {l : List Submission}
    (hl : l.Pairwise (fun a b => a.tag.toNat < b.tag.toNat)) (hn : ∀ x ∈ l, x.tag ≠ h.tag) :
    (insertSubmission h l).Pairwise (fun a b => a.tag.toNat < b.tag.toNat) := by
  induction l with
  | nil => simp [insertSubmission]
  | cons y ys ih =>
    have hne : y.tag.toNat ≠ h.tag.toNat := fun he => hn y (by simp) (BitVec.eq_of_toNat_eq he)
    simp only [insertSubmission]
    split_ifs with h1
    · simp only [List.pairwise_cons] at hl ⊢
      exact ⟨by simpa using ⟨h1, fun a ha => h1.trans (hl.1 a ha)⟩, hl⟩
    · simp only [List.pairwise_cons] at hl ⊢
      refine ⟨fun a ha => ?_, ih hl.2 (fun x hx => hn x (by simp [hx]))⟩
      rcases mem_insertSubmission.1 ha with rfl | ha
      · omega
      · exact hl.1 a ha

/-- The model's test for an outstanding tag (30_encoding.md R95). -/
theorem Channel.outstanding_iff {c : Channel} {t : Tag} : c.outstanding t = true ↔ t ∈ c.tags := by
  cases h : c.txreg <;>
    simp [Channel.outstanding, Channel.holds, Channel.inSlot, Channel.tags, h, or_assoc, @eq_comm _ t]

/-- The draw is an index of the set it draws from (43_transceiver.md R264). -/
theorem drawIndex_lt (own : FrameKind) (n : Nat) {k : Nat} (h : 0 < k) : drawIndex own n k < k := by
  unfold drawIndex
  split
  · exact h
  · exact Nat.mod_lt _ h

/-- All that REFILL can do. -/
theorem Channel.refill_cases (c : Channel) (own : FrameKind) :
    (c.refill own = c ∧ (c.life ≠ .opened ∨ c.txreg ≠ none ∨ c.hold = [])) ∨
    (c.life = .opened ∧ c.txreg = none ∧ ∃ (i : Nat) (hi : i < c.hold.length),
      c.refill own = { c with
        hold := c.hold.eraseIdx i
        txreg := some ⟨c.hold[i].tag, c.hold[i].frame, false⟩
        draws := c.draws + 1 }) := by
  unfold Channel.refill
  split
  · rename_i h hs hl ht hh
    have hi := drawIndex_lt own c.draws (k := hs.length + 1) (by omega)
    refine .inr ⟨hl, ht, drawIndex own c.draws (hs.length + 1), by simpa [hh] using hi, ?_⟩
    simp [hh, List.getD_eq_getElem?_getD, hi]
  · rename_i hno
    refine .inl ⟨rfl, ?_⟩
    by_contra hc
    simp only [not_or, ne_eq, Decidable.not_not] at hc
    obtain ⟨h1, h2, h3⟩ := hc
    obtain ⟨h, hs, hh⟩ := List.exists_cons_of_ne_nil h3
    exact hno h hs h1 h2 hh

/-! ### The channel invariant -/

/-- An event that is no disposal keeps the channel invariant. -/
theorem ChannelInv.emit {own : FrameKind} {c : Channel} (h : ChannelInv own c) {e : Event}
    (he : e ≠ .portDispose) : ChannelInv own (c.emit e) where
  holdAscending := h.holdAscending
  waitersAscending := h.waitersAscending
  tagsDistinct := h.tagsDistinct
  holdFrames := h.holdFrames
  slotFrame := h.slotFrame
  holdNeedsSlot := h.holdNeedsSlot
  closingDrained := h.closingDrained
  closedEmpty := h.closedEmpty
  disposedClosed := h.disposedClosed
  disposedOnce := by simp [List.count_append, h.disposedOnce, he]

/-- A closed channel meets the invariant. -/
theorem ChannelInv.of_completeClose {own : FrameKind} {c : Channel} (ht : c.txreg = none)
    (hh : c.hold = []) (hd : c.disposed = false) (ho : c.out.count .portDispose = 0) :
    ChannelInv own c.completeClose where
  holdAscending := by simp [hh]
  waitersAscending := by simp
  tagsDistinct := by simp [Channel.tags, hh, ht]
  holdFrames := by simp [hh]
  slotFrame := by simp [ht]
  holdNeedsSlot := by simp [hh]
  closingDrained := by simp
  closedEmpty := by simp [hh, ht]
  disposedClosed := by simp
  disposedOnce := by
    have : (c.waiters.map fun x => Event.result x .ok).count .portDispose = 0 := by
      rw [List.count_eq_zero]; simp
    simp [hd, ho, this]

/-- Freeing the slot of an open channel and refilling it keeps the invariant. -/
theorem ChannelInv.free_refill {own : FrameKind} {c c' : Channel} (h : ChannelInv own c)
    (hl : c.life = .opened) (hl' : c'.life = .opened) (ht' : c'.txreg = none)
    (hh' : c'.hold = c.hold) (hw' : c'.waiters = c.waiters)
    (hd' : c'.disposed = c.disposed) (ho' : c'.out.count .portDispose = c.out.count .portDispose) :
    ChannelInv own (c'.refill own) := by
  have hnd : c'.tags.Nodup := by
    have := h.tagsDistinct
    simp only [Channel.tags, hh', hw', ht'] at *
    simp [List.nodup_append] at *
    grind
  rcases c'.refill_cases own with ⟨he, hc⟩ | ⟨_, _, i, hi, he⟩
  · rw [he]
    exact {
      holdAscending := hh' ▸ h.holdAscending
      waitersAscending := hw' ▸ h.waitersAscending
      tagsDistinct := hnd
      holdFrames := hh' ▸ h.holdFrames
      slotFrame := by simp [ht']
      holdNeedsSlot := by simp_all
      closingDrained := by simp [hl']
      closedEmpty := by simp [hl']
      disposedClosed := by rw [hd', h.disposedClosed, hl, hl']
      disposedOnce := by rw [ho', hd', h.disposedOnce] }
  · rw [he]
    have hsub : c'.hold.eraseIdx i |>.Sublist c'.hold := List.eraseIdx_sublist _ _
    exact {
      holdAscending := (hh' ▸ h.holdAscending).sublist hsub
      waitersAscending := hw' ▸ h.waitersAscending
      tagsDistinct := by
        have hp : (c'.hold.eraseIdx i ++ [c'.hold[i]]).Perm c'.hold := by
          exact List.perm_append_comm.trans (List.getElem_cons_eraseIdx_perm hi)
        simp only [Channel.tags, ht', Option.toList, List.map_nil, List.append_nil, List.map_cons] at hnd ⊢
        refine (List.Perm.nodup_iff ?_).1 hnd
        have := (hp.map (·.tag)).append_right c'.waiters
        simpa using this.symm
      holdFrames := fun x hx => (hh' ▸ h.holdFrames) x (hsub.subset hx)
      slotFrame := by
        simp; exact (hh' ▸ h.holdFrames) _ (List.getElem_mem hi)
      holdNeedsSlot := by simp
      closingDrained := by simp [hl']
      closedEmpty := by simp [hl']
      disposedClosed := by simp [hd', h.disposedClosed, hl, hl']
      disposedOnce := by simp [ho', hd', h.disposedOnce] }

/-- A submission under a free tag keeps the invariant (43_transceiver.md R260). -/
theorem ChannelInv.of_submit {own : FrameKind} {c : Channel} (h : ChannelInv own c) {t : Tag}
    (ht : t ∉ c.tags) (k : FrameKind) (a fc : Byte) (data : List Byte) :
    ChannelInv own (c.submit own t k a fc data) := by
  unfold Channel.submit makeFrame
  split
  · exact h.emit (by simp)
  · rename_i f hf
    split at hf <;> simp at hf
    rename_i hsz
    have hv : f.ValidFor own := by subst hf; exact ⟨rfl, hsz⟩
    split
    · exact h.emit (by simp)
    rename_i hl
    simp at hl
    split
    · exact h.emit (by simp)
    have htt := ht
    simp only [Channel.tags, List.mem_append, not_or] at htt
    split
    · rename_i hn
      have hh : c.hold = [] := by
        by_contra hne; exact h.holdNeedsSlot hne hn
      have hnd := h.tagsDistinct
      exact {
        holdAscending := h.holdAscending
        waitersAscending := h.waitersAscending
        tagsDistinct := by
          simp [Channel.tags, hn, hh] at hnd htt ⊢
          exact ⟨htt, hnd⟩
        holdFrames := h.holdFrames
        slotFrame := by simpa using hv
        holdNeedsSlot := by simp
        closingDrained := by simp [hl]
        closedEmpty := by simp [hl]
        disposedClosed := h.disposedClosed
        disposedOnce := h.disposedOnce }
    · rename_i slot hs
      have hnd := h.tagsDistinct
      exact {
        holdAscending := insertSubmission_ascending h.holdAscending
          (fun x hx he => htt.1.1 (by simp; exact ⟨x, hx, he⟩))
        waitersAscending := h.waitersAscending
        tagsDistinct := by
          have hp : ∀ l : List Submission, (insertSubmission ⟨t, f⟩ l).Perm (⟨t, f⟩ :: l) := by
            intro l
            induction l with
            | nil => simp [insertSubmission]
            | cons y ys ih =>
              simp only [insertSubmission]
              split
              · exact .refl _
              · exact (ih.cons y).trans (.swap ..)
          simp only [Channel.tags] at hnd ⊢
          refine (List.Perm.nodup_iff
            ((((hp c.hold).map (·.tag)).append_right _).append_right _)).2 ?_
          simpa [Channel.tags] using ⟨by simpa [Channel.tags] using ht, by simpa using hnd⟩
        holdFrames := by
          intro x hx
          rcases mem_insertSubmission.1 hx with rfl | hx
          · exact hv
          · exact h.holdFrames x hx
        slotFrame := h.slotFrame
        holdNeedsSlot := by simp [hs]
        closingDrained := by simp [hl]
        closedEmpty := by simp [hl]
        disposedClosed := h.disposedClosed
        disposedOnce := h.disposedOnce }

/-- The start of a write keeps the invariant (R269). -/
theorem ChannelInv.of_startWrite {own : FrameKind} {c : Channel} (h : ChannelInv own c)
    {slot : TxSlot} (hs : c.txreg = some slot) (hl : c.life = .opened) (raw : List Byte) :
    ChannelInv own (c.startWrite slot raw) where
  holdAscending := h.holdAscending
  waitersAscending := h.waitersAscending
  tagsDistinct := by have := h.tagsDistinct; simpa [Channel.tags, hs] using this
  holdFrames := h.holdFrames
  slotFrame := by simpa using h.slotFrame slot hs
  holdNeedsSlot := by simp
  closingDrained := by simp [hl]
  closedEmpty := by simp [hl]
  disposedClosed := h.disposedClosed
  disposedOnce := by simp [h.disposedOnce]

/-- Cancelling a held submission keeps the invariant (R275). -/
theorem ChannelInv.of_cancelHeld {own : FrameKind} {c : Channel} (h : ChannelInv own c) {t : Tag}
    (hh : c.holds t = true) :
    ChannelInv own (c.cancelHeld t) := by
  have hne : c.hold ≠ [] := by rintro he; simp [Channel.holds, he] at hh
  have hsub : (c.hold.filter (·.tag != t)).Sublist c.hold := List.filter_sublist
  exact {
    holdAscending := h.holdAscending.sublist hsub
    waitersAscending := h.waitersAscending
    tagsDistinct := h.tagsDistinct.sublist (by simp [Channel.tags]; exact (hsub.map _))
    holdFrames := fun x hx => h.holdFrames x (hsub.subset hx)
    slotFrame := h.slotFrame
    holdNeedsSlot := fun _ => h.holdNeedsSlot hne
    closingDrained := fun hc => absurd (h.closingDrained hc).1 hne
    closedEmpty := fun hc => absurd (h.closedEmpty hc).2.1 hne
    disposedClosed := h.disposedClosed
    disposedOnce := by simp [h.disposedOnce] }

/-- Cancelling a waiter keeps the invariant (R275). -/
theorem ChannelInv.of_cancelWaiter {own : FrameKind} {c : Channel} (h : ChannelInv own c) {t : Tag} :
    ChannelInv own (c.cancelWaiter t) := by
  have hsub : (c.waiters.filter (· != t)).Sublist c.waiters := List.filter_sublist
  exact {
    holdAscending := h.holdAscending
    waitersAscending := h.waitersAscending.sublist hsub
    tagsDistinct := h.tagsDistinct.sublist (by simp [Channel.tags])
    holdFrames := h.holdFrames
    slotFrame := h.slotFrame
    holdNeedsSlot := h.holdNeedsSlot
    closingDrained := h.closingDrained
    closedEmpty := fun hc => by have := h.closedEmpty hc; simp_all
    disposedClosed := h.disposedClosed
    disposedOnce := by simp [h.disposedOnce] }

/-- WAIT under a free tag keeps the invariant (R287). -/
theorem ChannelInv.of_addWaiter {own : FrameKind} {c : Channel} (h : ChannelInv own c) {t : Tag}
    (ht : t ∉ c.tags) :
    ChannelInv own (c.addWaiter t) := by
  unfold Channel.addWaiter
  split
  · exact h.emit (by simp)
  · rename_i hl
    exact {
      holdAscending := h.holdAscending
      waitersAscending := insertTag_ascending h.waitersAscending
      tagsDistinct := by
        have hnd := h.tagsDistinct
        have : (insertTag t c.waiters).Nodup :=
          (insertTag_ascending h.waitersAscending).imp (by intro a b hab he; subst he; omega)
        simp only [Channel.tags, List.nodup_append, List.mem_append, not_or] at *
        refine ⟨hnd.1, this, ?_⟩
        intro a ha b hb
        rcases mem_insertTag.1 hb with rfl | hb
        · rintro rfl; tauto
        · exact hnd.2.2 a ha b hb
      holdFrames := h.holdFrames
      slotFrame := h.slotFrame
      holdNeedsSlot := h.holdNeedsSlot
      closingDrained := h.closingDrained
      closedEmpty := fun hc => absurd hc hl
      disposedClosed := h.disposedClosed
      disposedOnce := h.disposedOnce }

/-- The port of a unit that is not closed has not been disposed (10_state.md R38). -/
theorem ChannelInv.undisposed {own : FrameKind} {c : Channel} (h : ChannelInv own c)
    (hl : c.life ≠ .closed) : c.disposed = false ∧ c.out.count .portDispose = 0 := by
  have h1 : c.disposed = false := by
    have := h.disposedClosed; cases hd : c.disposed <;> simp_all
  refine ⟨h1, ?_⟩
  rw [h.disposedOnce, h1]; rfl

/-- Completions dispose no port. -/
theorem count_results (l : List Tag) (code : CompletionCode) :
    (l.map fun x => Event.result x code).count .portDispose = 0 := by
  rw [List.count_eq_zero]; simp

/-- The start of a graceful close keeps the invariant (R280, R282). -/
theorem ChannelInv.of_beginClose {own : FrameKind} {c : Channel} (h : ChannelInv own c)
    (hl : c.life = .opened) :
    ChannelInv own ({ c with life := .closing }.failPending) where
  holdAscending := by simp
  waitersAscending := h.waitersAscending
  tagsDistinct := h.tagsDistinct.sublist (by simp [Channel.tags]; split <;> simp)
  holdFrames := by simp
  slotFrame := by simp; intro slot _ hs; exact h.slotFrame slot hs
  holdNeedsSlot := by simp
  closingDrained := by
    simp [Channel.unstarted, Channel.writing]
    rcases c.txreg with _ | ⟨t, f, _ | _⟩ <;> simp
  closedEmpty := by simp
  disposedClosed := by simp [(h.undisposed (by simp [hl])).1]
  disposedOnce := by simp [count_results, h.disposedOnce]

end Sys2Proof.Machine
end

