-- ==== Sys2Proof/Laws/Encoding.lean ====
section
/-! SUPPORT. Lemmas about the operation words: cutting a word into fields and putting it together are
inverse, and so are packing and unpacking a payload (30_encoding.md R90, R93). -/

namespace Sys2Proof

/-- Which bit of which field stands at a bit of a word (R90). -/
theorem Fields.getLsbD_toWord (f : Fields) (i : Nat) :
    f.toWord.getLsbD i =
      if i < 8 then f.b.getLsbD i
      else if i = 8 then f.v
      else if i = 9 then f.o
      else if i < 12 then f.r2.getLsbD (i - 10)
      else if i = 12 then f.k
      else if i < 16 then f.r1.getLsbD (i - 13)
      else if i < 24 then f.t.getLsbD (i - 16)
      else f.op.getLsbD (i - 24) := by
  have h : f.toWord.getLsbD i =
      BitVec.getLsbD (w := 8 + 8 + 3 + 1 + 2 + 1 + 1 + 8)
        (f.op ++ f.t ++ f.r1 ++ BitVec.ofBool f.k ++ f.r2 ++ BitVec.ofBool f.o ++
          BitVec.ofBool f.v ++ f.b) i := rfl
  rw [h]
  simp only [BitVec.getLsbD_append, BitVec.getLsbD_ofBool, Nat.sub_sub]
  split_ifs <;> simp_all <;> try omega

/-- The fields of a word put together from fields are those fields. -/
@[simp] theorem Fields.ofWord_toWord (f : Fields) : Fields.ofWord f.toWord = f := by
  have h := f.getLsbD_toWord
  obtain ⟨op, t, r1, k, r2, o, v, b⟩ := f
  simp only [Fields.ofWord, Fields.mk.injEq]
  refine ⟨?_, ?_, ?_, ?_, ?_, ?_, ?_, ?_⟩ <;>
    first
      | rw [h]; simp
      | (apply BitVec.eq_of_getLsbD_eq
         intro i hi
         rw [BitVec.getLsbD_extractLsb', h]
         interval_cases i <;> simp)

/-- A word is its fields put together. -/
@[simp] theorem Fields.toWord_ofWord (w : Word) : (Fields.ofWord w).toWord = w := by
  apply BitVec.eq_of_getLsbD_eq
  intro i hi
  rw [Fields.getLsbD_toWord]
  simp only [Fields.ofWord, BitVec.getLsbD_extractLsb']
  interval_cases i <;> simp

/-- Two words with the same fields are equal. -/
theorem Fields.ofWord_injective {w w' : Word} (h : Fields.ofWord w = Fields.ofWord w') : w = w' := by
  rw [← Fields.toWord_ofWord w, h, Fields.toWord_ofWord]

/-- Which bit of which byte stands at a bit of a packed word (R93). -/
theorem getLsbD_packed (a b c d : Byte) (i : Nat) :
    BitVec.getLsbD (w := 32) (d ++ c ++ b ++ a) i =
      if i < 8 then a.getLsbD i
      else if i < 16 then b.getLsbD (i - 8)
      else if i < 24 then c.getLsbD (i - 16)
      else d.getLsbD (i - 24) := by
  have h : BitVec.getLsbD (w := 32) (d ++ c ++ b ++ a) i =
      BitVec.getLsbD (w := 8 + 8 + 8 + 8) (d ++ c ++ b ++ a) i := rfl
  rw [h]
  simp only [BitVec.getLsbD_append, Nat.sub_sub]
  split_ifs <;> first | rfl | omega

/-- The bytes of a word packed from four bytes are those bytes. -/
@[simp] theorem wordBytes_append (a b c d : Byte) : wordBytes (d ++ c ++ b ++ a) = [a, b, c, d] := by
  simp only [wordBytes, List.cons.injEq, and_true]
  refine ⟨?_, ?_, ?_, ?_⟩ <;>
    (apply BitVec.eq_of_getLsbD_eq
     intro i hi
     rw [BitVec.getLsbD_extractLsb', getLsbD_packed]
     interval_cases i <;> simp)

/-- A word is its bytes packed. -/
theorem append_wordBytes (w : Word) :
    w.extractLsb' 24 8 ++ w.extractLsb' 16 8 ++ w.extractLsb' 8 8 ++ w.extractLsb' 0 8 = w := by
  apply BitVec.eq_of_getLsbD_eq
  intro i hi
  rw [getLsbD_packed]
  simp only [BitVec.getLsbD_extractLsb']
  interval_cases i <;> simp

/-! ### Payloads (R93) -/

/-- A payload of `n` bytes takes `ceil_div(n, 4)` words. -/
@[simp] theorem packPayload_length (bs : List Byte) :
    (packPayload bs).length = ceilDiv bs.length 4 := by
  fun_induction packPayload bs <;> (simp_all [ceilDiv]; try omega)

/-- The bytes of a packed payload are the payload, then zeros. -/
theorem packPayload_bytes (bs : List Byte) :
    (packPayload bs).flatMap wordBytes =
      bs ++ List.replicate (4 * ceilDiv bs.length 4 - bs.length) 0 := by
  fun_induction packPayload bs with
  | case1 => rfl
  | case2 a => simp only [List.flatMap_cons, wordBytes_append]; simp [ceilDiv]
  | case3 a b => simp only [List.flatMap_cons, wordBytes_append]; simp [ceilDiv]
  | case4 a b c => simp only [List.flatMap_cons, wordBytes_append]; simp [ceilDiv]
  | case5 a b c d rest ih =>
    have h : 4 * ceilDiv (rest.length + 4) 4 - (rest.length + 4) =
        4 * ceilDiv rest.length 4 - rest.length := by simp only [ceilDiv]; omega
    simp [ih, h]

/-- A packed payload is taken whole, and the words after it are left. -/
@[simp] theorem takePayload_packPayload (bs : List Byte) (rest : List Word) :
    takePayload bs.length (packPayload bs ++ rest) = .ok (bs, rest) := by
  have h := packPayload_length bs
  simp [takePayload, ← h, packPayload_bytes, -packPayload_length]

/-- Words whose bytes after the `n`-th are zero are the packing of their first `n` bytes. -/
theorem packPayload_take {n : Nat} {ms : List Word} (hm : ms.length = ceilDiv n 4)
    (hz : ∀ b ∈ (ms.flatMap wordBytes).drop n, b = 0) :
    packPayload ((ms.flatMap wordBytes).take n) = ms := by
  induction ms generalizing n with
  | nil => simp [packPayload]
  | cons w ms ih =>
    obtain ⟨a, b, c, d, rfl⟩ : ∃ a b c d : Byte, w = d ++ c ++ b ++ a :=
      ⟨_, _, _, _, (append_wordBytes w).symm⟩
    simp only [List.flatMap_cons, wordBytes_append, List.cons_append, List.nil_append] at hz ⊢
    simp only [List.length_cons, ceilDiv] at hm
    match n, hm, hz with
    | 0, hm, _ => omega
    | 1, hm, hz =>
      obtain rfl : ms = [] := List.eq_nil_of_length_eq_zero (by omega)
      simp at hz
      simp [packPayload, hz]
    | 2, hm, hz =>
      obtain rfl : ms = [] := List.eq_nil_of_length_eq_zero (by omega)
      simp at hz
      simp [packPayload, hz]
    | 3, hm, hz =>
      obtain rfl : ms = [] := List.eq_nil_of_length_eq_zero (by omega)
      simp at hz
      simp [packPayload, hz]
    | n + 4, hm, hz =>
      have hm' : ms.length = ceilDiv n 4 := by simp only [ceilDiv]; omega
      simp only [List.drop_succ_cons] at hz
      simp [packPayload, ih hm' hz]

/-- Four bytes stand in a word. -/
@[simp] theorem wordBytes_length (w : Word) : (wordBytes w).length = 4 := rfl

/-- Payload byte `j` is byte `j mod 4` of word `j / 4`. -/
theorem getD_payloadBytes (ms : List Word) (j : Nat) :
    (ms.flatMap wordBytes).getD j 0 = (ms.getD (j / 4) 0).extractLsb' (8 * (j % 4)) 8 := by
  induction ms generalizing j with
  | nil => simp
  | cons w ms ih =>
    match j with
    | 0 | 1 | 2 | 3 => simp [wordBytes]
    | j + 4 =>
      simp only [List.flatMap_cons, wordBytes, List.cons_append, List.nil_append,
        List.getD_cons_succ, ih j]
      rw [show (j + 4) / 4 = j / 4 + 1 by omega, show (j + 4) % 4 = j % 4 by omega,
        List.getD_cons_succ]

/-- Words hold four payload bytes each. -/
@[simp] theorem payloadBytes_length (ms : List Word) :
    (ms.flatMap wordBytes).length = 4 * ms.length := by
  induction ms with
  | nil => rfl
  | cons w ms ih => simp only [List.flatMap_cons, List.length_append, wordBytes_length, ih,
      List.length_cons]; omega

/-- What a taken payload is: `n` bytes, and the stream began with their packing. -/
theorem takePayload_ok {n : Nat} {ws : List Word} {bs : List Byte} {rest : List Word}
    (h : takePayload n ws = .ok (bs, rest)) : bs.length = n ∧ ws = packPayload bs ++ rest := by
  simp only [takePayload] at h
  split at h
  · cases h
  · split at h
    · rename_i hlen hz
      simp only [Except.ok.injEq, Prod.mk.injEq] at h
      obtain ⟨rfl, rfl⟩ := h
      have hm : (ws.take (ceilDiv n 4)).length = ceilDiv n 4 := by simp; omega
      rw [packPayload_take hm (by simpa using hz)]
      have hn : n ≤ 4 * ceilDiv n 4 := by simp only [ceilDiv]; omega
      refine ⟨?_, by simp⟩
      rw [List.length_take, payloadBytes_length, hm]
      omega
    · cases h

end Sys2Proof
end

