-- ==== Sys2Proof/Laws/PerInstr.lean ====
section
/-! SUPPORT. Per constructor: the head word of an operation's encoding says how many words the encoding
has (30_encoding.md R94). -/

namespace Sys2Proof

/-- An encoding of one word says that it is one word long. -/
theorem opLength_single (f : Fields) (h : f.op ≠ 0x23) (h' : f.op ≠ 0x33) :
    opLength f.toWord = 1 := by
  simp only [opLength, Fields.ofWord_toWord]
  exact if_neg (not_or.2 ⟨h, h'⟩)

/-- The head word of a submission gives the length of the whole. -/
theorem opLength_submission (op : Byte) (t : Tag) (k : FrameKind) (address functionCode : Byte)
    (data : List Byte) (hop : op = 0x23 ∨ op = 0x33) (h : data.length ≤ 255) :
    (encodeSubmission op t k address functionCode data).head?.map opLength =
      some (encodeSubmission op t k address functionCode data).length := by
  have hl : data.length % 256 = data.length := Nat.mod_eq_of_lt (by omega)
  simp only [encodeSubmission, opLength, List.head?_cons, Option.map_some, Fields.ofWord_toWord]
  rw [if_pos hop]
  simp [hl, Nat.add_comm 1]

namespace Laws.Length

/-- The head word of the encoding gives the number of its words. -/
def Statement (i : Instr) : Prop := i.wf = true → (encode i).head?.map opLength = some (encode i).length

theorem crcInit : Statement (.crcInit) :=
  fun _ => congrArg some (opLength_single _ (by simp) (by simp))

theorem crcUpd (b : Byte) : Statement (.crcUpd b) :=
  fun _ => congrArg some (opLength_single _ (by simp) (by simp))

theorem crcRead : Statement (.crcRead) :=
  fun _ => congrArg some (opLength_single _ (by simp) (by simp))

theorem lrcInit : Statement (.lrcInit) :=
  fun _ => congrArg some (opLength_single _ (by simp) (by simp))

theorem lrcUpd (b : Byte) : Statement (.lrcUpd b) :=
  fun _ => congrArg some (opLength_single _ (by simp) (by simp))

theorem lrcRead : Statement (.lrcRead) :=
  fun _ => congrArg some (opLength_single _ (by simp) (by simp))

theorem rtuRxc (b : Byte) (valid overrun : Bool) : Statement (.rtuRxc b valid overrun) :=
  fun _ => congrArg some (opLength_single _ (by simp) (by simp))

theorem rtuT15 : Statement (.rtuT15) :=
  fun _ => congrArg some (opLength_single _ (by simp) (by simp))

theorem rtuT35 : Statement (.rtuT35) :=
  fun _ => congrArg some (opLength_single _ (by simp) (by simp))

theorem rtuTxs (t : Tag) (k : FrameKind) (address functionCode : Byte) (data : List Byte) :
    Statement (.rtuTxs t k address functionCode data) :=
  fun h => opLength_submission _ t k address functionCode data (.inl rfl) (of_decide_eq_true h)

theorem rtuTxd (failed : Bool) : Statement (.rtuTxd failed) :=
  fun _ => congrArg some (opLength_single _ (by simp) (by simp))

theorem rtuCnr (c : CounterSelect) : Statement (.rtuCnr c) :=
  fun _ => congrArg some (opLength_single _ (by simp) (by simp))

theorem rtuCnz (c : CounterSelect) : Statement (.rtuCnz c) :=
  fun _ => congrArg some (opLength_single _ (by simp) (by simp))

theorem rtuCls (forcibly : Bool) : Statement (.rtuCls forcibly) :=
  fun _ => congrArg some (opLength_single _ (by simp) (by simp))

theorem rtuCxl (t : Tag) : Statement (.rtuCxl t) :=
  fun _ => congrArg some (opLength_single _ (by simp) (by simp))

theorem rtuStat : Statement (.rtuStat) :=
  fun _ => congrArg some (opLength_single _ (by simp) (by simp))

theorem rtuWait (t : Tag) : Statement (.rtuWait t) :=
  fun _ => congrArg some (opLength_single _ (by simp) (by simp))

theorem rtuStep : Statement (.rtuStep) :=
  fun _ => congrArg some (opLength_single _ (by simp) (by simp))

theorem ascRxc (b : Byte) (valid : Bool) : Statement (.ascRxc b valid) :=
  fun _ => congrArg some (opLength_single _ (by simp) (by simp))

theorem ascTxs (t : Tag) (k : FrameKind) (address functionCode : Byte) (data : List Byte) :
    Statement (.ascTxs t k address functionCode data) :=
  fun h => opLength_submission _ t k address functionCode data (.inr rfl) (of_decide_eq_true h)

theorem ascTxd (failed : Bool) : Statement (.ascTxd failed) :=
  fun _ => congrArg some (opLength_single _ (by simp) (by simp))

theorem ascCls (forcibly : Bool) : Statement (.ascCls forcibly) :=
  fun _ => congrArg some (opLength_single _ (by simp) (by simp))

theorem ascCxl (t : Tag) : Statement (.ascCxl t) :=
  fun _ => congrArg some (opLength_single _ (by simp) (by simp))

theorem ascStat : Statement (.ascStat) :=
  fun _ => congrArg some (opLength_single _ (by simp) (by simp))

theorem ascWait (t : Tag) : Statement (.ascWait t) :=
  fun _ => congrArg some (opLength_single _ (by simp) (by simp))

theorem ascStep : Statement (.ascStep) :=
  fun _ => congrArg some (opLength_single _ (by simp) (by simp))

end Laws.Length

end Sys2Proof
end

