-- ==== Sys2Proof/Laws/Stream.lean ====
section
/-! SUPPORT. What makes step refuse an operation that decodes (60_exceptions.md R328). -/

namespace Sys2Proof.Machine

/-- The port owes no completion while the unit is not closed and the slot holds no started write
(43_transceiver.md R272). -/
theorem Channel.owedNoCompletion_iff (c : Channel) :
    c.owedNoCompletion = true ↔ c.life ≠ .closed ∧ ∀ slot ∈ c.txreg, slot.started = false := by
  cases h : c.txreg <;> simp [Channel.owedNoCompletion, Channel.writing, h]

/-- All that the port's duty can refuse (R272). -/
theorem portRefusal_cases (i : Instr) (s : State) :
    portRefusal i s = none ∨ (portRefusal i s = some .portDuty ∧
      (((∃ failed, i = .rtuTxd failed) ∧ s.rtu.ch.owedNoCompletion = true) ∨
        ((∃ failed, i = .ascTxd failed) ∧ s.asc.ch.owedNoCompletion = true))) := by
  cases i <;> simp only [portRefusal, true_or]
  all_goals split <;> simp_all

/-- All that the timed layer can refuse (41_rtu_receiver.md R190, R192). -/
theorem timingRefusal_cases (i : Instr) (τ : Nat) (s : State) :
    timingRefusal i τ s = none ∨ (s.layer = .timed ∧ unitOf i = .rtu ∧
      (timingRefusal i τ s = some .timeReversed ∧ τ < s.rtu.now ∨
        timingRefusal i τ s = some .timerOverdue ∧ s.rtu.now ≤ τ ∧
          s.rtu.overdue s.params.timerSlack τ = true)) := by
  unfold timingRefusal
  cases hl : s.layer <;> split_ifs <;> simp_all

/-- The untimed layer refuses nothing by its timestamp (log 7). -/
@[simp] theorem timingRefusal_untimed {i : Instr} {τ : Nat} {s : State} (h : s.layer = .untimed) :
    timingRefusal i τ s = none := by simp [timingRefusal, h]

/-- Only the RTU transceiver has a time axis (log 24). -/
@[simp] theorem timingRefusal_of_unitOf {i : Instr} {τ : Nat} {s : State} (h : unitOf i ≠ .rtu) :
    timingRefusal i τ s = none := by simp [timingRefusal, h]

/-- An operation is one of a stream of the hardware when neither check refuses it. -/
theorem streamRefusal_eq_none {i : Instr} {τ : Nat} {s : State} :
    streamRefusal i τ s = none ↔ timingRefusal i τ s = none ∧ portRefusal i s = none := by
  simp [streamRefusal]

end Sys2Proof.Machine
end

