-- ==== Sys2Proof/Laws/Wire.lean ====
section
/-! SUPPORT. Lemmas about the digests and the wire formats (40_checksum.md, 30_encoding.md part A). -/

namespace Sys2Proof.Machine

/-! ### Digests -/

/-- The running sum, on naturals (R131). -/
theorem foldl_lrcStep_toNat (m : List Byte) (sum : Byte) :
    (m.foldl lrcStep sum).toNat = (sum.toNat + (m.map (·.toNat)).sum) % 256 := by
  induction m generalizing sum with
  | nil => simp; omega
  | cons b m ih => simp [ih, lrcStep]; omega

/-- The digest of a sum is its negation (R125). -/
theorem lrcOfSum_eq_neg (sum : Byte) : lrcOfSum sum = -sum := by
  apply BitVec.eq_of_toNat_eq
  simp [lrcOfSum]

/-- One shift of the CRC step, on naturals (R120). -/
theorem crcShift_toNat (c : BitVec 16) :
    (crcShift c).toNat = if c.toNat % 2 = 1 then (c.toNat / 2) ^^^ 0xA001 else c.toNat / 2 := by
  have h : c.getLsbD 0 = decide (c.toNat % 2 = 1) := by simp [BitVec.getLsbD, Nat.testBit_zero]
  rw [crcShift, h]
  by_cases hc : c.toNat % 2 = 1 <;> simp [hc, Nat.shiftRight_eq_div_pow]

/-- The CRC of a longer string goes on from that of the shorter (R133). -/
theorem crc16_append (m n : List Byte) : crc16 (m ++ n) = n.foldl crcStep (crc16 m) := by
  simp [crc16]

/-! ### Hex digits (30_encoding.md R85, R86) -/

/-- Every hex digit has its value, whether or not lowercase is accepted. -/
@[simp] theorem hexValue_hexChar (p : Params) {n : Nat} (h : n < 16) :
    hexValue p (hexChar n) = some n := by
  have hi : hexChars.idxOf? (hexChar n) = some n := by revert h; revert n; decide
  simp [hexValue, hi]

/-- Without lowercase, only the hex digits have a value. -/
theorem hexValue_eq_some {p : Params} {c : Byte} {n : Nat} (hp : p.asciiAcceptLowercase = false)
    (h : hexValue p c = some n) : n < 16 ∧ c = hexChar n := by
  simp only [hexValue, hp] at h
  have hall : ∀ c : Byte, ∀ n, hexChars.idxOf? c = some n → n < 16 ∧ c = hexChar n := by
    intro c n hc
    rw [List.idxOf?, List.findIdx?_eq_some_iff_getElem] at hc
    obtain ⟨hn, hb, _⟩ := hc
    refine ⟨hn, ?_⟩
    simp only [beq_iff_eq] at hb
    simp [hexChar, List.getD_eq_getElem?_getD, List.getElem?_eq_getElem hn, hb]
  split at h
  · rename_i k hk
    obtain rfl : k = n := by simpa using h
    exact hall c _ hk
  · simp at h

/-- The two digits of a byte are below 16. -/
theorem nibbles_lt (b : Byte) : b.toNat / 16 < 16 ∧ b.toNat % 16 < 16 := by omega

/-- A byte is its two digits. -/
theorem ofNat_nibbles (b : Byte) : BitVec.ofNat 8 (16 * (b.toNat / 16) + b.toNat % 16) = b := by
  rw [Nat.div_add_mod]; simp

/-- The hex pair of a byte decodes to it. -/
@[simp] theorem unhex_hexPair (p : Params) (b : Byte) :
    unhex p (hexChar (b.toNat / 16)) (hexChar (b.toNat % 16)) = some b := by
  simp [unhex, (nibbles_lt b).1, (nibbles_lt b).2, ofNat_nibbles]

/-- A hex digit is none of the three characters of the framing. -/
theorem hexChar_ne {n : Nat} (h : n < 16) :
    hexChar n ≠ colon ∧ hexChar n ≠ carriageReturn ∧ hexChar n ≠ lineFeed := by
  revert h; revert n; decide

/-- The hex pairs of bytes decode to the bytes (R233). -/
@[simp] theorem decodePairs_hexPairs (p : Params) (bs : List Byte) :
    decodePairs p (bs.flatMap hexPair) = some bs := by
  induction bs with
  | nil => rfl
  | cons b bs ih => simp [hexPair, decodePairs, ih]

/-- What decodes is hex pairs. -/
theorem decodePairs_eq_some {p : Params} (hp : p.asciiAcceptLowercase = false) {cs bs : List Byte}
    (h : decodePairs p cs = some bs) : cs = bs.flatMap hexPair := by
  fun_induction decodePairs p cs generalizing bs with
  | case1 => simp at h; simp [h]
  | case2 => simp at h
  | case3 c1 c2 rest b bs' hbs hb ih =>
    simp only [Option.some.injEq] at h
    subst h
    simp only [unhex] at hb
    split at hb
    · rename_i n l hn hl
      obtain ⟨hn, rfl⟩ := hexValue_eq_some hp hn
      obtain ⟨hl, rfl⟩ := hexValue_eq_some hp hl
      simp only [Option.some.injEq] at hb
      subst hb
      have h1 : (16 * n + l) % 256 / 16 = n := by omega
      have h2 : (16 * n + l) % 256 % 16 = l := by omega
      simp [hexPair, ih hbs, h1, h2]
    · simp at hb
  | case4 => simp at h

/-- A hex pair is two characters. -/
@[simp] theorem hexPairs_length (bs : List Byte) : (bs.flatMap hexPair).length = 2 * bs.length := by
  induction bs with
  | nil => rfl
  | cons b bs ih => simp [hexPair]; omega

/-- The characters of hex pairs are hex digits. -/
theorem mem_hexPairs {bs : List Byte} {c : Byte} (h : c ∈ bs.flatMap hexPair) :
    ∃ n < 16, c = hexChar n := by
  obtain ⟨b, _, hb⟩ := List.mem_flatMap.1 h
  simp only [hexPair, List.mem_cons, List.not_mem_nil, or_false] at hb
  rcases hb with rfl | rfl
  · exact ⟨_, (nibbles_lt b).1, rfl⟩
  · exact ⟨_, (nibbles_lt b).2, rfl⟩

end Sys2Proof.Machine
end

