-- ==== Sys2Proof/Tests/Slice0.lean ====
section
/-! SUPPORT. The model's own tests, and a witness for the hypotheses of every statement.

Expected results are those of spec/95_test_vectors.md (the vector is named in each docstring) or are read
from the rules of spec/ by hand. -/

namespace Sys2Proof.Tests

open Sys2Proof.Machine

/-! ### Small states -/

/-- The RTU unit of a result. -/
def rtuOf : Result → Option RtuUnit
  | .next t => some t.rtu
  | _ => none

/-- The ASCII unit of a result. -/
def ascOf : Result → Option AscUnit
  | .next t => some t.asc
  | _ => none

/-- An operation is executed and changes nothing. -/
def noEffect (i : Instr) (s : State) : Bool :=
  match exec i s with
  | .next t => t == s
  | _ => false

/-- Why a step is refused. -/
def refusalOf : Result → Option Refusal
  | .refused r => some r
  | _ => none

/-- The RTU transceiver after construction: INIT. -/
def rtuInit : RtuUnit := RtuUnit.reset LineConfig.resetChoice

/-- The RTU transceiver in IDLE. -/
def rtuIdle : RtuUnit := { rtuInit with st := .idle, arm35 := false }

/-- The RTU transceiver in RECEPTION with the characters `buf`. -/
def rtuReception (buf : List Byte) : RtuUnit :=
  { rtuIdle with
    st := .reception, buf := buf, arm15 := true, arm35 := true
    d15 := t15 rtuIdle.cfg, d35 := t35 rtuIdle.cfg }

/-- The RTU transceiver in CTRLWAIT with the characters `buf`. -/
def rtuCtrlwait (buf : List Byte) : RtuUnit :=
  { rtuReception buf with st := .ctrlwait, arm15 := false }

/-- The ASCII transceiver after construction: IDLE. -/
def ascIdle : AscUnit := AscUnit.reset LineConfig.resetChoice

/-- The machine with that RTU transceiver. -/
def withRtu (u : RtuUnit) : State := { State.reset with rtu := u }

/-- The machine with that ASCII transceiver. -/
def withAsc (u : AscUnit) : State := { State.reset with asc := u }

/-- A transceiver's transmit side with a slot, held submissions and waiters. -/
def channel (txreg : Option TxSlot) (hold : List Submission) (waiters : List Tag) : Channel :=
  { Channel.reset with txreg := txreg, hold := hold, waiters := waiters }

/-- The RTU query of 95_test_vectors.md W1. -/
def query : Frame := ⟨.rtu, 0x01, 0x03, [0x00, 0x00, 0x00, 0x08]⟩

/-- Its raw frame (W1). -/
def queryRaw : List Byte := [0x01, 0x03, 0x00, 0x00, 0x00, 0x08, 0x44, 0x0C]

/-- The ASCII query of W3. -/
def asciiQuery : Frame := ⟨.ascii, 0x01, 0x03, [0x00, 0x00, 0x00, 0x08]⟩

/-- Its raw frame, as W3 corrects it. -/
def asciiQueryRaw : List Byte :=
  [0x3A, 0x30, 0x31, 0x30, 0x33, 0x30, 0x30, 0x30, 0x30, 0x30, 0x30, 0x30, 0x38, 0x46, 0x34, 0x0D,
   0x0A]

/-- The RTU transceiver writing the query under tag 1. -/
def rtuWriting : RtuUnit :=
  { rtuIdle with st := .emission, ch := channel (some ⟨1, query, true⟩) [] [] }

/-- The ASCII transceiver writing the query under tag 5. -/
def ascWriting : AscUnit := ascIdle.setCh (channel (some ⟨5, asciiQuery, true⟩) [] [])

/-- A closed channel. -/
def closedChannel : Channel := { Channel.reset with life := .closed, disposed := true, out := [.portDispose] }

/-- A stream of words at one timestamp. -/
def at_ (τ : Nat) (ws : List Word) : List StreamWord := ws.map (⟨τ, ·⟩)

/-! ### Syntax and well-formedness (30_encoding.md R93) -/

/-- A submission of 256 data bytes has no encoding. -/
theorem test_illFormed_rtuTxs :
    (Instr.rtuTxs 1 .rtu 0x01 0x03 (List.replicate 256 0)).wf = false := by decide +kernel

/-- A submission of 256 data bytes has no encoding. -/
theorem test_illFormed_ascTxs :
    (Instr.ascTxs 1 .ascii 0x01 0x03 (List.replicate 256 0)).wf = false := by decide +kernel

/-- 255 data bytes are encodable (R93: N 253 to 255 complete with FRAME_CONSTRUCTION). -/
theorem test_wellFormed_txs :
    (Instr.rtuTxs 1 .rtu 0x01 0x03 (List.replicate 255 0)).wf = true ∧
      (Instr.ascTxs 1 .ascii 0x01 0x03 (List.replicate 255 0)).wf = true := by decide +kernel

/-! ### Decoding: words written out from R90 to R92 -/

/-- OP 0x00 to 0x02 and 0x10 to 0x12; the CRC.UPD word is W-1. -/
theorem test_decode_checksum :
    decode [0b00000000000000000000000000000000] = .ok (.crcInit, []) ∧
    decode [0b00000001000000000000000010100101] = .ok (.crcUpd 0xA5, []) ∧
    decode [0b00000010000000000000000000000000] = .ok (.crcRead, []) ∧
    decode [0b00010000000000000000000000000000] = .ok (.lrcInit, []) ∧
    decode [0b00010001000000000000000011110100] = .ok (.lrcUpd 0xF4, []) ∧
    decode [0b00010010000000000000000000000000] = .ok (.lrcRead, []) := by decide

/-- OP 0x20 to 0x24 (W-4, W-7, W-9 among them). -/
theorem test_decode_rtu_line :
    decode [0b00100000000000000000001000000001] = .ok (.rtuRxc 0x01 false true, []) ∧
    decode [0b00100001000000000000000000000000] = .ok (.rtuT15, []) ∧
    decode [0b00100010000000000000000000000000] = .ok (.rtuT35, []) ∧
    decode [0x23010004, 0x00000301, 0x00000800] =
      .ok (.rtuTxs 1 .rtu 0x01 0x03 [0x00, 0x00, 0x00, 0x08], []) ∧
    decode [0b00100011000000110001000000000000, 0b00000000000000000000001100000001] =
      .ok (.rtuTxs 3 .ascii 0x01 0x03 [], []) ∧
    decode [0b00100100000000000000000100000000] = .ok (.rtuTxd true, []) := by decide

/-- OP 0x25 to 0x2B (W-10, W-11 among them). -/
theorem test_decode_rtu_host :
    decode [0b00100101000000000000000000000010] = .ok (.rtuCnr .ovr, []) ∧
    decode [0b00100110000000000000000000000001] = .ok (.rtuCnz .err, []) ∧
    decode [0b00100111000000000000000100000000] = .ok (.rtuCls true, []) ∧
    decode [0b00101000000000010000000000000000] = .ok (.rtuCxl 1, []) ∧
    decode [0b00101001000000000000000000000000] = .ok (.rtuStat, []) ∧
    decode [0b00101010000010010000000000000000] = .ok (.rtuWait 9, []) ∧
    decode [0b00101011000000000000000000000000] = .ok (.rtuStep, []) := by decide

/-- OP 0x30 to 0x3B (W-6, W-8, W-12 among them). -/
theorem test_decode_ascii :
    decode [0b00110000000000000000000100111010] = .ok (.ascRxc 0x3A true, []) ∧
    decode [0x33061004, 0x6B000311, 0x00000300] =
      .ok (.ascTxs 6 .ascii 0x11 0x03 [0x00, 0x6B, 0x00, 0x03], []) ∧
    decode [0b00110100000000000000000000000000] = .ok (.ascTxd false, []) ∧
    decode [0b00110111000000000000000100000000] = .ok (.ascCls true, []) ∧
    decode [0b00111000000001100000000000000000] = .ok (.ascCxl 6, []) ∧
    decode [0b00111001000000000000000000000000] = .ok (.ascStat, []) ∧
    decode [0b00111010000001110000000000000000] = .ok (.ascWait 7, []) ∧
    decode [0b00111011000000000000000000000000] = .ok (.ascStep, []) := by decide

/-- W-13 to W-15, ASC.RXC with `O = 1` (R98), a non-zero unused payload byte (R98), a submission cut
short. -/
theorem test_decode_refuses :
    decode [0x25000003] = .error .reservedCounter ∧
    decode [0x40000000] = .error .unassignedOp ∧
    decode [0x20010101] = .error .reservedBits ∧
    decode [0x3000033A] = .error .reservedBits ∧
    decode [0x23010000, 0x00010301] = .error .reservedBits ∧
    decode [0x23010004, 0x00000301] = .error .truncated := by decide

/-- The encoder gives W-7 and W-8 back. -/
theorem test_encode_txs :
    encode (.rtuTxs 1 .rtu 0x01 0x03 [0x00, 0x00, 0x00, 0x08]) =
      [0x23010004, 0x00000301, 0x00000800] ∧
    encode (.ascTxs 6 .ascii 0x11 0x03 [0x00, 0x6B, 0x00, 0x03]) =
      [0x33061004, 0x6B000311, 0x00000300] := by decide

/-- No two rows of the opcode table share a word: their OP bytes differ (R92). -/
theorem test_opcodeTable_disjoint : opcodeTable.Pairwise (fun a b => a.op ≠ b.op) := by decide

/-- Every row's fixed bits hold its OP byte, and its pattern lies in its mask (R91). -/
theorem test_opcodeTable_masks :
    opcodeTable.all (fun r => r.pattern &&& r.mask == r.pattern && r.mask &&& 0xFF000000 == 0xFF000000)
      = true := by decide

/-- The host's numbering: the first word in the low bits. -/
theorem test_decodeTableWord :
    decodeTableWord 32 0x22000000 = some .rtuT35 ∧
    decodeTableWord 32 0x23000000 = some (.rtuTxs 0 .rtu 0 0 []) ∧
    decodeTableWord 32 0x40000000 = none := by decide

/-- The placed instruction is the one that the next step takes. -/
theorem test_withFetchWord :
    rtuOf (step (State.reset.withFetchWord 32 0x22000000)) = some { rtuIdle with now := t35 rtuIdle.cfg } ∧
    (State.reset.withFetchWord 32 0x23000002).stream.length = 2 := by decide

/-! ### Checksum engines -/

/-- R122. -/
theorem test_crcInit : exec .crcInit { State.reset with crc := ⟨0x807E, []⟩ } = .next State.reset := rfl

/-- CU-1, CU-9, CU-10. -/
theorem test_crcUpd :
    crcStep 0xFFFF 0x01 = 0x807E ∧ crcStep 0x1234 0x56 = 0xE993 ∧ crcStep 0xA001 0x00 = 0xC061 := by
  decide

/-- C-6, C-8, C-12. -/
theorem test_crc16 :
    crc16 [0x01, 0x03, 0x00, 0x00, 0x00, 0x08] = 0x0C44 ∧
    crc16 [0x31, 0x32, 0x33, 0x34, 0x35, 0x36, 0x37, 0x38, 0x39] = 0x4B37 ∧
    crc16 [0xFF, 0xFF] = 0 := by decide +kernel

/-- R124: reading changes nothing. -/
theorem test_crcRead :
    exec .crcRead State.reset =
      .next { State.reset with crc := ⟨0xFFFF, [.value 0xFFFF]⟩ } := rfl

/-- R130. -/
theorem test_lrcInit : exec .lrcInit { State.reset with lrc := ⟨0x05, []⟩ } = .next State.reset := rfl

/-- L-13: the sum wraps. -/
theorem test_lrcUpd :
    exec (.lrcUpd 0x01) { State.reset with lrc := ⟨0xFF, []⟩ } = .next State.reset := rfl

/-- L-14 (not 0x100) and L-6. -/
theorem test_lrcRead :
    exec .lrcRead State.reset = .next { State.reset with lrc := ⟨0, [.value 0]⟩ } ∧
    exec .lrcRead { State.reset with lrc := ⟨0x80, []⟩ } =
      .next { State.reset with lrc := ⟨0x80, [.value 0x80]⟩ } := ⟨rfl, rfl⟩

/-- L-2, L-4. -/
theorem test_lrc8 :
    lrc8 [0x01, 0x03, 0x00, 0x00, 0x00, 0x08] = 0xF4 ∧
    lrc8 [0x31, 0x32, 0x33, 0x34, 0x35, 0x36, 0x37, 0x38, 0x39] = 0x23 := by decide

/-! ### Wire formats and timers -/

/-- E-1, E-2. -/
theorem test_rtuEncode :
    rtuEncode query = queryRaw ∧ rtuEncode ⟨.rtu, 0xFF, 0xFF, []⟩ = [0xFF, 0xFF, 0x00, 0x00] := by decide +kernel

/-- E-4 (W3 with the LRC that R125 gives, 90_conflicts.md C1). -/
theorem test_asciiEncode : asciiEncode asciiQuery = asciiQueryRaw := by decide

/-- E-8 to E-10. -/
theorem test_unhex :
    unhex Params.default 0x30 0x41 = some 0x0A ∧ unhex Params.default 0x46 0x46 = some 0xFF ∧
    unhex Params.default 0x30 0x61 = none ∧
    unhex { Params.default with asciiAcceptLowercase := true } 0x30 0x61 = some 0x0A ∧
    unhex Params.default 0x47 0x30 = none ∧ unhex Params.default 0x0D 0x30 = none := by decide

/-- AD-3, AD-4, AD-6: LRC, SHORT, MALFORMED. -/
theorem test_asciiDecode_drops :
    asciiDecode Params.default (asciiQueryRaw.set 14 0x32) false = .error .lrc ∧
    asciiDecode Params.default [0x3A, 0x30, 0x31, 0x46, 0x43, 0x0D, 0x0A] false = .error .short ∧
    asciiDecode Params.default [0x3A, 0x30, 0x31, 0x30, 0x0D, 0x0A] false = .error .malformed ∧
    asciiDecode Params.default asciiQueryRaw true = .error .nok := by decide

/-- T-1, T-2, T-4, T-10. -/
theorem test_timers :
    (t15 ⟨9600, 8, .none, 1, 1⟩ = 1562501 ∧ t35 ⟨9600, 8, .none, 1, 1⟩ = 3645835) ∧
    (t15 ⟨9600, 8, .even, 1, 1⟩ = 1718751 ∧ t35 ⟨9600, 8, .even, 1, 1⟩ = 4010419) ∧
    (t15 ⟨115200, 8, .none, 1, 1⟩ = 375000 ∧ t35 ⟨115200, 8, .none, 1, 1⟩ = 875000) ∧
    (t15 ⟨1, 8, .even, 2, 512⟩ = 9216000000000 ∧ t35 ⟨1, 8, .even, 2, 512⟩ = 21504000000000) := by
  decide

/-! ### RTU receiver -/

/-- RX-7, and RX-3 (the overrun is acknowledged, the character discarded). -/
theorem test_rtuRxc :
    rtuOf (exec (.rtuRxc 0x01 false false) (withRtu rtuIdle)) =
      some { rtuReception [0x01] with nok := true } ∧
    rtuOf (exec (.rtuRxc 0x55 true true) (withRtu rtuInit)) =
      some (rtuInit.setCh { Channel.reset with out := [.portOvrAck] }) := by decide

/-- RX-19 and RX-11 (a character in CTRLWAIT is not stored). -/
theorem test_rtuRxc_in_run :
    rtuOf (exec (.rtuRxc 0x03 false false) (withRtu (rtuReception [0x01]))) =
      some { rtuReception [0x01, 0x03] with nok := true } ∧
    rtuOf (exec (.rtuRxc 0x00 true false) (withRtu (rtuCtrlwait queryRaw))) =
      some { rtuCtrlwait queryRaw with nok := true } := by decide

/-- RX-10 and RX-4. -/
theorem test_rtuT15 :
    rtuOf (exec .rtuT15 (withRtu (rtuReception queryRaw))) = some (rtuCtrlwait queryRaw) ∧
    noEffect .rtuT15 (withRtu rtuInit) = true := by decide

/-- RX-1: the clean run is shown and counted. -/
theorem test_rtuT35_clean :
    rtuOf (exec .rtuT35 (withRtu (rtuCtrlwait queryRaw))) =
      some { rtuCtrlwait [] with
        st := .idle, arm35 := false, cntMsg := 1
        ch := { Channel.reset with out := [.frame query] } } := by decide +kernel

/-- RX-12: a short run is counted as an error, its CRC not checked; RX-9 and RX-6: no effect. -/
theorem test_rtuT35_short :
    rtuOf (exec .rtuT35 (withRtu (rtuCtrlwait [0xFF, 0xFF]))) =
      some { rtuCtrlwait [] with st := .idle, arm35 := false, cntErr := 1 } ∧
    noEffect .rtuT35 (withRtu (rtuReception [0x01])) = true ∧
    noEffect .rtuT35 (withRtu rtuIdle) = true := by decide

/-- RX-24, RX-25. -/
theorem test_rtuStep :
    rtuOf (exec .rtuStep (withRtu (rtuIdle.setCh (channel (some ⟨1, query, false⟩) [] [])))) =
      some { rtuWriting with
        ch := { rtuWriting.ch with out := [.portTx queryRaw] } } ∧
    noEffect .rtuStep (withRtu (rtuInit.setCh (channel (some ⟨1, query, false⟩) [] []))) = true := by
  decide +kernel

/-! ### The timed layer (95_test_vectors.md, RTU timed layer) -/

/-- RTU.T35 at 3645835 takes INIT to IDLE; one nanosecond earlier it has no effect (R191), one later the
stream is refused (R192). -/
theorem test_timed_window :
    let s (τ : Nat) : State :=
      { State.reset with layer := .timed, stream := at_ τ [0x22000000] }
    (rtuOf (step (s 3645835))).map (·.st) = some .idle ∧
    (rtuOf (step (s 3645834))).map (·.st) = some .init ∧
    refusalOf (step (s 3645836)) = some .timerOverdue := by decide

/-- The character at 4000000 sets the deadlines 5562501 and 7645835. -/
theorem test_timed_deadlines :
    (rtuOf (step { withRtu rtuIdle with layer := .timed, stream := at_ 4000000 [0x20000101] })).map
      (fun u => (u.d15, u.d35)) = some (5562501, 7645835) := by decide

/-! ### Transmission -/

/-- TX-1, TX-4. -/
theorem test_rtuTxs :
    rtuOf (exec (.rtuTxs 1 .rtu 0x01 0x03 [0x00, 0x00, 0x00, 0x08]) (withRtu rtuInit)) =
      some (rtuInit.setCh (channel (some ⟨1, query, false⟩) [] [])) ∧
    rtuOf (exec (.rtuTxs 4 .rtu 0x01 0x03 (List.replicate 253 0)) (withRtu rtuInit)) =
      some (rtuInit.setCh { Channel.reset with out := [.result 4 .frameConstruction] }) := by decide +kernel

/-- TX-7, TX-6. -/
theorem test_ascTxs :
    refusalOf (exec (.ascTxs 5 .ascii 0x01 0x03 []) (withAsc ascWriting)) = some .tagReuse ∧
    ascOf (exec (.ascTxs 6 .rtu 0x01 0x03 []) (withAsc (ascIdle.setCh closedChannel))) =
      some (ascIdle.setCh
        { closedChannel with out := [.portDispose, .result 6 .invalidOperation] }) := by decide

/-- TX-9 with tag 2 held: it is the only one held, so the draw is forced. -/
theorem test_rtuTxd :
    rtuOf (exec (.rtuTxd true)
      (withRtu (rtuWriting.setCh (channel (some ⟨1, query, true⟩) [⟨2, query⟩] [])))) =
      some { rtuWriting with
        eph := .settle, arm35 := true, d35 := t35 rtuIdle.cfg
        ch := { channel (some ⟨2, query, false⟩) [] [] with
          out := [.result 1 .deviceError], draws := 1 } } ∧
    noEffect (.rtuTxd false) (withRtu (rtuIdle.setCh (channel (some ⟨1, query, false⟩) [] []))) = true := by
  decide

/-- 43_transceiver.md R272: the port owes no completion before the write begins; in CLOSED a late one has no effect (60_exceptions.md R329). -/
theorem test_stepRefusesUnowedTxd :
    refusalOf (step { withRtu (rtuIdle.setCh (channel (some ⟨1, query, false⟩) [] [])) with
      stream := at_ 0 [0x24000000] }) = some .portDuty ∧
    (rtuOf (step { withRtu (rtuIdle.setCh closedChannel) with stream := at_ 0 [0x24000000] })).map
      (·.ch) = some closedChannel ∧
    refusalOf (step { withAsc ascIdle with stream := at_ 0 [0x34000000] }) = some .portDuty := by
  decide

/-- TX-26, its second half: the write's end completes the close. -/
theorem test_ascTxd :
    ascOf (exec (.ascTxd false)
      (withAsc (ascIdle.setCh { channel (some ⟨5, asciiQuery, true⟩) [] [] with life := .closing }))) =
      some (ascIdle.setCh
        { closedChannel with out := [.result 5 .ok, .portDispose] }) := by decide

/-- TX-12, TX-16. -/
theorem test_rtuCxl :
    rtuOf (exec (.rtuCxl 1)
      (withRtu (rtuInit.setCh (channel (some ⟨1, query, false⟩) [⟨2, query⟩] [])))) =
      some (rtuInit.setCh
        { channel (some ⟨2, query, false⟩) [] [] with
          out := [.result 1 .operationCancelled], draws := 1 }) ∧
    noEffect (.rtuCxl 7) (withRtu rtuInit) = true := by decide

/-- TX-14 on the ASCII transceiver (P4 line 7). -/
theorem test_ascCxl :
    ascOf (exec (.ascCxl 6)
      (withAsc (ascIdle.setCh (channel (some ⟨5, asciiQuery, false⟩) [⟨6, asciiQuery⟩] [])))) =
      some (ascIdle.setCh
        { channel (some ⟨5, asciiQuery, false⟩) [] [] with out := [.result 6 .operationCancelled] }) := by
  decide

/-- TX-25. -/
theorem test_ascStep :
    ascOf (exec .ascStep (withAsc (ascIdle.setCh (channel (some ⟨5, asciiQuery, false⟩) [] [])))) =
      some (ascIdle.setCh
        { channel (some ⟨5, asciiQuery, true⟩) [] [] with out := [.portTx asciiQueryRaw] }) := by decide

/-! ### Lifecycle and counters -/

/-- TX-17: the order of the events. -/
theorem test_rtuCls_graceful :
    (rtuOf (exec (.rtuCls false) (withRtu (rtuInit.setCh
      (channel (some ⟨1, query, false⟩) [⟨2, query⟩, ⟨3, query⟩] [9]))))).map (·.ch.out) =
      some [.result 1 .invalidOperation, .result 2 .invalidOperation, .result 3 .invalidOperation,
        .portDispose, .result 9 .ok] := by decide

/-- TX-20. -/
theorem test_rtuCls_forcibly :
    (rtuOf (exec (.rtuCls true) (withRtu (rtuWriting.setCh
      { rtuWriting.ch with life := .closing })))).map (fun u => (u.ch.life, u.st, u.ch.out)) =
      some (.closed, .idle, [.portTxAbort, .result 1 .invalidOperation, .portDispose]) := by decide

/-- TX-26, its first half: CLOSING, the receptor cleared. -/
theorem test_ascCls :
    ascOf (exec (.ascCls false) (withAsc { ascWriting with ast := .append, abuf := [colon] })) =
      some (ascWriting.setCh { ascWriting.ch with life := .closing }) := by decide

/-- TX-22, TX-23. -/
theorem test_stat :
    (rtuOf (exec .rtuStat (withRtu rtuInit))).map (·.ch.out) = some [.value 0] ∧
    (ascOf (exec .ascStat (withAsc (ascIdle.setCh closedChannel)))).map (·.ch.out) =
      some [.portDispose, .value 1] := by decide

/-- TX-24, and a WAIT before the close. -/
theorem test_wait :
    (rtuOf (exec (.rtuWait 4) (withRtu (rtuIdle.setCh closedChannel)))).map (·.ch.out) =
      some [.portDispose, .result 4 .ok] ∧
    (ascOf (exec (.ascWait 7) (withAsc (ascIdle.setCh (channel none [] [9]))))).map (·.ch.waiters) =
      some [7, 9] := by decide

/-- TX-27. -/
theorem test_counters :
    (rtuOf (exec (.rtuCnr .msg) (withRtu { rtuIdle with cntMsg := 3 }))).map (·.ch.out) =
      some [.value 3] ∧
    rtuOf (exec (.rtuCnz .msg) (withRtu { rtuIdle with cntMsg := 3, cntErr := 5 })) =
      some { rtuIdle with cntErr := 5 } := by decide

/-- RX-20: a counter at its maximum stays there. -/
theorem test_counter_saturates :
    saturatingSucc 0xFFFFFFFFFFFFFFFF = 0xFFFFFFFFFFFFFFFF ∧ saturatingSucc 0 = 1 := by decide

/-! ### ASCII receiver -/

/-- AD-1 at its last character, and AD-15's first. -/
theorem test_ascRxc :
    ascOf (exec (.ascRxc 0x0A true)
      (withAsc { ascIdle with ast := .eof, abuf := asciiQueryRaw.dropLast })) =
      some (ascIdle.setCh { Channel.reset with out := [.frame asciiQuery] }) ∧
    ascOf (exec (.ascRxc 0x3A false) (withAsc ascIdle)) =
      some { ascIdle with ast := .append, abuf := [0x3A], anok := true } := by decide

/-- AD-13: a character after CR falls back to APPEND. -/
theorem test_ascRxc_fallback :
    ascOf (exec (.ascRxc 0x58 true) (withAsc { ascIdle with ast := .eof, abuf := [0x3A, 0x0D] })) =
      some { ascIdle with ast := .append, abuf := [0x3A, 0x0D, 0x58] } := by decide

/-! ### Witnesses: concrete states and operands that meet the hypotheses of each statement

Each theorem is named for the statement of Obligations.lean; its clauses stand in the order of the
statement's. -/

/-- A frame value of each kind. -/
theorem valid_query : query.ValidFor .rtu ∧ asciiQuery.ValidFor .ascii :=
  ⟨⟨rfl, by decide⟩, ⟨rfl, by decide⟩⟩

/-- A channel that writes, with a submission held and a waiter. -/
def busy (f : Frame) (started : Bool) : Channel := channel (some ⟨1, f, started⟩) [⟨2, f⟩] [9]

/-- The busy channel meets the channel invariant. -/
theorem busy_inv (own : FrameKind) (f : Frame) (started : Bool) (h : f.ValidFor own) :
    ChannelInv own (busy f started) := by
  constructor <;> simp [busy, channel, Channel.reset, Channel.tags, h]

/-- The channel of a graceful close with a write in flight meets the channel invariant. -/
theorem closing_inv (own : FrameKind) (f : Frame) (h : f.ValidFor own) :
    ChannelInv own { channel (some ⟨1, f, true⟩) [] [9] with life := .closing } := by
  constructor <;> simp [channel, Channel.reset, Channel.tags, Channel.writing, h]

/-- The channel after construction meets the channel invariant. -/
theorem fresh_inv (own : FrameKind) : ChannelInv own (channel none [] []) := by
  constructor <;> simp [channel, Channel.reset, Channel.tags]

/-- The closed channel meets the channel invariant. -/
theorem closed_inv (own : FrameKind) : ChannelInv own closedChannel := by
  constructor <;> simp [closedChannel, Channel.reset, Channel.tags]

/-- The RTU transceiver in RECEPTION, a submission queued and one held. -/
def rtuRun : RtuUnit := (rtuReception queryRaw).setCh (busy query false)

/-- It meets the RTU invariant. -/
theorem rtuRun_inv : RtuInv rtuRun := by
  constructor
  case channel => exact busy_inv _ _ _ valid_query.1
  all_goals decide

/-- The RTU transceiver after construction, with requests. -/
def rtuWaiting : RtuUnit := rtuInit.setCh (busy query false)

/-- It meets the RTU invariant. -/
theorem rtuWaiting_inv : RtuInv rtuWaiting := by
  constructor
  case channel => exact busy_inv _ _ _ valid_query.1
  all_goals decide

/-- The RTU transceiver writing, with requests. -/
def rtuBusy : RtuUnit := rtuWriting.setCh (busy query true)

/-- It meets the RTU invariant. -/
theorem rtuBusy_inv : RtuInv rtuBusy := by
  constructor
  case channel => exact busy_inv _ _ _ valid_query.1
  all_goals decide

/-- A closed RTU transceiver meets the RTU invariant. -/
theorem rtuClosed_inv : RtuInv (rtuIdle.setCh closedChannel) := by
  constructor
  case channel => exact closed_inv _
  all_goals decide

/-- An RTU transceiver that closes gracefully, its write in flight, meets the RTU invariant. -/
theorem rtuClosing_inv :
    RtuInv (rtuWriting.setCh { channel (some ⟨1, query, true⟩) [] [9] with life := .closing }) := by
  constructor
  case channel => exact closing_inv _ _ valid_query.1
  all_goals decide

/-- The ASCII transceiver meets its invariant with any such channel while the receptor is in IDLE. -/
theorem asc_inv (c : Channel) (hc : ChannelInv .ascii c)
    (hw : c.life = .closing → c.writing = true) : AscInv Params.default (ascIdle.setCh c) := by
  constructor
  case channel => exact hc
  case closingWriting => exact fun h => ⟨hw h, rfl⟩
  case closedIdle => exact fun _ => rfl
  all_goals simp [ascIdle, AscUnit.reset, configValid, LineConfig.resetChoice]

/-- The machine with that RTU transceiver and an idle ASCII transceiver meets the invariant in the
untimed layer. -/
theorem withRtu_inv (u : RtuUnit) (h : RtuInv u) (hc : paramsValid u.cfg Params.default = true) :
    Inv (withRtu u) :=
  ⟨h, asc_inv _ (fresh_inv _) (by decide), hc, by simp [withRtu, State.reset]⟩

theorem witness_DecodeReadsBackEncode :
    (Instr.ascTxs 0xFF .ascii 0xFF 0xFF (List.replicate 255 0xFF)).wf = true := by decide +kernel

theorem witness_DecodeAcceptsOnlyEncodings :
    decode [0x23031000, 0x00000301, 0x22000000] = .ok (.rtuTxs 3 .ascii 0x01 0x03 [], [0x22000000]) := by
  decide

theorem witness_UnassignedOpRefusesTheStream :
    let w : StreamWord := ⟨0, 0x03000000⟩
    (withRtu rtuInit).deliver [w.word] = { withRtu rtuInit with stream := [⟨3645835, 0x03000000⟩] } ∧
    ∀ row ∈ opcodeTable, row.op ≠ w.word.extractLsb' 24 8 := by decide

theorem witness_ReservedBitsAreRefused :
    (∃ row ∈ opcodeTable, row.op = (0x20010101 : Word).extractLsb' 24 8 ∧
      row.fits 0x20010101 = false) ∧
    -- the last used and the two unused bytes of the one payload word of a submission with N = 0
    ((0x23010000 : Word) &&& 0xFF00EF00 = 0x23000000) ∧
    ((0x33010000 : Word) &&& 0xFF00EF00 = 0x33000000) ∧
    ceilDiv (((0x23010000 : Word).extractLsb' 0 8).toNat + 2) 4 ≤ [0x01010301].length ∧
    (∀ j ∈ [2, 3], ((0x23010000 : Word).extractLsb' 0 8).toNat + 2 ≤ j ∧
      j < 4 * ceilDiv (((0x23010000 : Word).extractLsb' 0 8).toNat + 2) 4 ∧
      (([0x01010301] : List Word).getD (j / 4) 0).extractLsb' (8 * (j % 4)) 8 ≠ 0) := by decide

theorem witness_OperationLengthFromHeadWord :
    decode [0x22000000, 0x21000000] = .ok (.rtuT35, [0x21000000]) ∧
    decode [0x33000002, 0x04030201, 0x22000000] =
      .ok (.ascTxs 0 .rtu 0x01 0x02 [0x03, 0x04], [0x22000000]) := by decide

theorem witness_EncodingExamplesDecode :
    (List.replicate 255 (0xFF : Byte)).length ≤ 255 ∧ ([] : List Byte).length ≤ 255 := by decide +kernel

theorem witness_StepExecutesTheDecodedOperation :
    let w : StreamWord := ⟨3645835, 0x22000000⟩
    let s : State := { State.reset with layer := .timed, stream := [w] }
    Instr.rtuT35.wf = true ∧ s.stream = w :: [] ++ [] ∧ [w].map (·.word) = encode .rtuT35 ∧
    timingRefusal .rtuT35 w.stamp s = none ∧ State.reset.layer = .untimed ∧
    -- a completion the port owes, and one after the close
    rtuBusy.ch.writing = true ∧ ascWriting.ch.writing = true ∧ closedChannel.life = .closed := by
  decide

theorem witness_EmptyStreamWaits : State.reset.stream = [] := rfl

theorem witness_OverdueTimersRefuseTheStream :
    let s : State := { withRtu rtuRun with layer := .timed }
    -- RTU.STAT at the end of the 1.5 window and past it; in INIT, past the 3.5 window
    [0x29000000] = encode .rtuStat ∧ s.layer = .timed ∧ unitOf .rtuStat = .rtu ∧
    s.rtu.now ≤ 1562501 ∧ s.rtu.arm15 = true ∧ s.rtu.d15 + s.params.timerSlack < 1562502 ∧
    rtuInit.arm35 = true ∧ rtuInit.arm15 = false ∧ rtuInit.d35 + 0 < 3645836 := by decide

theorem witness_TimersFireInTheirWindow :
    (let s : State := { withRtu rtuRun with layer := .timed, stream := at_ 1562501 [0x21000000] }
     Inv s ∧ s.layer = .timed ∧ (rtuOf (step s)).map (·.arm15) = some false ∧ s.rtu.arm15 = true) ∧
    (let s : State := { withRtu rtuWaiting with layer := .timed, stream := at_ 3645835 [0x22000000] }
     Inv s ∧ s.layer = .timed ∧ (rtuOf (step s)).map (·.arm35) = some false ∧ s.rtu.arm35 = true) :=
  ⟨⟨⟨rtuRun_inv, asc_inv _ (fresh_inv _) (by decide), by decide, by decide⟩, by decide⟩,
    ⟨⟨rtuWaiting_inv, asc_inv _ (fresh_inv _) (by decide), by decide, by decide⟩, by decide⟩⟩

theorem witness_TimestampsNeverGoBack :
    let s : State := { withRtu { rtuInit with now := 5 } with layer := .timed }
    [0x29000000] = encode .rtuStat ∧ unitOf .rtuStat = .rtu ∧ s.layer = .timed ∧ 4 < s.rtu.now := by
  decide

theorem witness_GapDecidesTheNextCharacter :
    let run : State := { withRtu rtuRun with layer := .timed }
    let wait : State := { withRtu (rtuCtrlwait queryRaw) with layer := .timed }
    [0x20000155] = encode (.rtuRxc 0x55 true false) ∧
    -- in RECEPTION, the gap t15 and the gap t15 + 1
    run.rtu.ch.life ≠ .closed ∧ run.rtu.d15 = 0 + t15 run.rtu.cfg ∧ run.rtu.d35 = 0 + t35 run.rtu.cfg ∧
    run.rtu.st = .reception ∧ run.rtu.arm15 = true ∧ run.rtu.buf.length < 256 ∧
    run.rtu.now ≤ 0 + t15 run.rtu.cfg ∧ t15 run.rtu.cfg ≤ t15 run.rtu.cfg + run.params.timerSlack ∧
    t15 run.rtu.cfg + run.params.timerSlack < t15 run.rtu.cfg + 1 ∧
    -- in CTRLWAIT, the gap t35 and the gap t35 + 1
    wait.rtu.ch.life ≠ .closed ∧ wait.rtu.d15 = 0 + t15 wait.rtu.cfg ∧
    wait.rtu.d35 = 0 + t35 wait.rtu.cfg ∧ wait.rtu.st = .ctrlwait ∧ wait.rtu.arm15 = false ∧
    wait.rtu.arm35 = true ∧ t35 wait.rtu.cfg ≤ t35 wait.rtu.cfg + wait.params.timerSlack ∧
    t35 wait.rtu.cfg + wait.params.timerSlack < t35 wait.rtu.cfg + 1 ∧
    -- the greatest slack a configuration admits
    configValid ⟨115200, 8, .none, 1, 1⟩ = true ∧
    paramsValid ⟨115200, 8, .none, 1, 1⟩ ⟨false, 513, false, false, 250000⟩ = true := by decide

theorem witness_StreamingEqualsBatch :
    ∀ i ∈ [Instr.crcUpd 0x01, .crcRead, .crcUpd 0x03], i = .crcRead ∨ ∃ b, i = .crcUpd b := by simp

theorem witness_FramesRoundTrip :
    (Frame.mk .ascii 0xFF 0xFF (List.replicate 252 0xFF)).ValidFor .ascii ∧
    (Frame.mk .rtu 0x00 0x00 []).ValidFor .rtu :=
  ⟨⟨rfl, by decide +kernel⟩, ⟨rfl, by decide⟩⟩

theorem witness_AsciiDecodeAcceptsOnlyEncodings :
    Params.default.asciiStripExtraCr = false ∧ Params.default.asciiAcceptLowercase = false ∧
    asciiDecode Params.default (0x3A :: [0x30, 0x31, 0x30, 0x33, 0x46, 0x43] ++ [0x0D, 0x0A]) false =
      .ok ⟨.ascii, 0x01, 0x03, []⟩ := by decide

theorem witness_RawFrameLengths :
    (Frame.mk .rtu 0x01 0x03 (List.replicate 252 0)).ValidFor .rtu ∧
    (Frame.mk .ascii 0x01 0x03 (List.replicate 252 0)).ValidFor .ascii :=
  ⟨⟨rfl, by decide +kernel⟩, ⟨rfl, by decide +kernel⟩⟩

theorem witness_HexPairsDecodeUniquely :
    Params.default.asciiAcceptLowercase = false ∧ [0x30, 0x30] = hexPair 0x00 ∧
    [0x46, 0x46] = hexPair 0xFF := by decide

theorem witness_ExtraCarriageReturns :
    Params.default.asciiStripExtraCr = false ∧
    ({ Params.default with asciiStripExtraCr := true } : Params).asciiStripExtraCr = true := by decide

theorem witness_CharactersOutsideARunAreDiscarded :
    closedChannel.life = .closed ∧
    (rtuInit.ch.life ≠ .closed ∧ rtuInit.st = .init) ∧
    (let u : RtuUnit := { rtuWriting with eph := .settle }
     u.ch.life ≠ .closed ∧ u.st = .emission ∧ u.eph = .settle) ∧
    (rtuWriting.ch.life ≠ .closed ∧ rtuWriting.st = .emission ∧ rtuWriting.eph = .tx) := by decide

theorem witness_CharacterInIdleStartsARun :
    rtuIdle.ch.life ≠ .closed ∧ rtuIdle.st = .idle := by decide

theorem witness_CharacterInReceptionExtendsTheRun :
    let u (n : Nat) : RtuUnit := rtuReception (List.replicate n 0)
    (u 255).ch.life ≠ .closed ∧ (u 255).st = .reception ∧ (u 255).buf.length < 256 ∧
    256 ≤ (u 256).buf.length := by decide +kernel

theorem witness_CharacterInCtrlwaitSpoilsTheRun :
    (rtuCtrlwait queryRaw).ch.life ≠ .closed ∧ (rtuCtrlwait queryRaw).st = .ctrlwait := by decide

theorem witness_ShortTimerEndsTheMainBytes :
    closedChannel.life = .closed ∧ rtuIdle.arm15 = false ∧
    (rtuRun.ch.life ≠ .closed ∧ rtuRun.arm15 = true ∧ (withRtu rtuRun).layer = .untimed) ∧
    (let u : RtuUnit := { rtuRun with now := 1562501 }
     u.arm15 = true ∧ u.d15 ≤ u.now) := by decide

theorem witness_LongTimerEndsASilenceWait :
    closedChannel.life = .closed ∧ rtuIdle.arm35 = false ∧ rtuRun.arm15 = true ∧
    (rtuInit.ch.life ≠ .closed ∧ rtuInit.arm35 = true ∧ rtuInit.arm15 = false ∧
      (withRtu rtuInit).layer = .untimed ∧ rtuInit.st = .init) ∧
    (let u : RtuUnit := { rtuWriting with eph := .settle, arm35 := true, d35 := 7, now := 7 }
     u.ch.life ≠ .closed ∧ u.arm35 = true ∧ u.arm15 = false ∧ u.d35 ≤ u.now ∧ u.st = .emission ∧
       u.eph = .settle) := by decide

theorem witness_LongTimerFinalizesTheRun :
    let u : RtuUnit := rtuCtrlwait [0xFF, 0xFF, 0x00, 0x00]
    let short : RtuUnit := rtuCtrlwait [0xFF, 0xFF, 0x00]
    u.st = .ctrlwait ∧ u.arm35 = true ∧ u.arm15 = false ∧ (withRtu u).layer = .untimed ∧
    -- clean, and not: the shortest clean run and a shorter one
    (u.nok = false ∧ 4 ≤ u.buf.length ∧ crc16 u.buf = 0) ∧ ¬4 ≤ short.buf.length ∧
    -- overrun, and not
    (let v : RtuUnit := { u with nok := true, ovf := true }
     let p : Params := { Params.default with overflowCountsAsOverrun := true }
     v.nok = true ∧ (v.ovr = true ∨ (p.overflowCountsAsOverrun = true ∧ v.ovf = true)) ∧
       ¬(v.ovr = true ∨ (Params.default.overflowCountsAsOverrun = true ∧ v.ovf = true))) ∧
    u.ch.life = .opened ∧
    (u.setCh { u.ch with life := .closing }).ch.life = .closing := by decide +kernel

theorem witness_RtuStepStartsTheWrite :
    (let u := rtuIdle.setCh (busy query false)
     u.ch.life = .opened ∧ u.st = .idle ∧ u.ch.txreg = some ⟨1, query, false⟩) ∧
    closedChannel.life ≠ .opened ∧ rtuRun.st ≠ .idle ∧ (∀ slot ∈ rtuBusy.ch.txreg, slot.started = true) := by
  decide

theorem witness_RunEmitsItsFrameExactlyWhenClean :
    let c : Character := ⟨0xFF, true, false⟩
    let body : List Instr := [.rtuRxc 0xFF true false, .rtuRxc 0x00 true false, .rtuRxc 0x00 true false]
    let late : List Instr := [.rtuT15, .rtuRxc 0xFF true false]
    (withRtu rtuIdle).layer = .untimed ∧ rtuIdle.st = .idle ∧ rtuIdle.ch.life = .opened ∧
    (∀ i ∈ body ++ late, i = .rtuT15 ∨ ∃ b valid overrun, i = .rtuRxc b valid overrun) ∧
    -- a whole run that ends in its CRC: the shortest
    (∀ x ∈ rtuCharacters (.rtuRxc c.byte c.valid c.overrun :: body), x.valid = true ∧ x.overrun = false) ∧
    (rtuCharacters (.rtuRxc c.byte c.valid c.overrun :: body)).map (·.byte) =
      [0xFF, 0xFF] ++
        [(crc16 [0xFF, 0xFF]).extractLsb' 0 8, (crc16 [0xFF, 0xFF]).extractLsb' 8 8] ∧
    .rtuT15 ∉ body ∧
    -- a run that is not whole: a character after the 1.5 expiry
    (late = [] ++ .rtuT15 :: [.rtuRxc 0xFF true false] ∧
      rtuCharacters [.rtuRxc 0xFF true false] ≠ []) := by
  refine ⟨rfl, rfl, rfl, by simp, by decide, by decide +kernel, by decide, rfl, by decide⟩

theorem witness_StepKeepsTheInvariant :
    let s : State := { withRtu rtuBusy with stream := at_ 0 [0x24000000] }
    Inv s ∧ (rtuOf (step s)).map (·.eph) = some .settle :=
  ⟨⟨rtuBusy_inv, asc_inv _ (fresh_inv _) (by decide), by decide, by decide⟩, by
    simp only [at_, List.map, step, stepOnce, State.fetch]
    rfl⟩

theorem witness_ResetMeetsTheInvariant :
    configValid ⟨1, 7, .even, 2, 512⟩ = true ∧ configValid ⟨115200, 8, .none, 1, 1⟩ = true ∧
    paramsValid ⟨115200, 8, .none, 1, 1⟩ ⟨true, 600, true, true, 250000⟩ = true := by decide

theorem witness_ConstructionGivesTheResetState :
    RtuUnit.construct ⟨300, 8, some .even, 2, some 1⟩ = .ok (RtuUnit.reset ⟨300, 8, .even, 2, 1⟩) ∧
    AscUnit.construct ⟨300, 8, some .even, 2, some 1⟩ = .ok (AscUnit.reset ⟨300, 8, .even, 2, 1⟩) :=
  ⟨rfl, rfl⟩

theorem witness_InvalidConfigurationsBuildNoUnit :
    (let q : ConfigRequest := ⟨1, 7, some .odd, 2, some 512⟩
     1 ≤ q.baud ∧ (q.dataBits = 7 ∨ q.dataBits = 8) ∧ q.parity ≠ none ∧
      (q.stopBits = 1 ∨ q.stopBits = 2) ∧ q.scale = some 512 ∧ 1 ≤ 512 ∧ 512 ≤ 512) ∧
    ¬1 ≤ (⟨0, 8, some .odd, 1, some 1⟩ : ConfigRequest).baud ∧
    (⟨1, 8, none, 1, some 1⟩ : ConfigRequest).parity = none ∧
    (⟨1, 8, some .odd, 1, some 513⟩ : ConfigRequest).scale = some 513 := by decide

theorem witness_TimerDurations :
    configValid ⟨115200, 8, .none, 1, 1⟩ = true ∧ configValid ⟨1, 7, .even, 2, 512⟩ = true := by decide

theorem witness_SubmissionIsCheckedThenQueued :
    (1 ∈ (busy query false).tags ∧ 2 ∈ (busy query false).tags ∧ 9 ∈ (busy query false).tags) ∧
    3 ∉ (busy query false).tags ∧
    252 < (List.replicate 253 (0 : Byte)).length ∧ (List.replicate 252 (0 : Byte)).length ≤ 252 ∧
    closedChannel.life ≠ .opened ∧ 3 ∉ closedChannel.tags ∧
    (busy query false).life = .opened ∧ FrameKind.ascii ≠ .rtu ∧ Channel.reset.txreg = none ∧
    3 ∉ Channel.reset.tags ∧ (busy query false).txreg ≠ none := by decide +kernel

theorem witness_RefillDrawsOneHeldSubmission :
    let c : Channel := channel none [⟨2, query⟩, ⟨3, query⟩] []
    c.hold.Pairwise (fun a b => a.tag.toNat < b.tag.toNat) ∧ c.life = .opened ∧ c.txreg = none ∧
    c.hold ≠ [] ∧ closedChannel.life ≠ .opened ∧ (busy query true).txreg ≠ none ∧
    Channel.reset.hold = [] := by decide

theorem witness_RtuWriteCompletion :
    ([0x24000100] = encode (.rtuTxd true) ∧ (withRtu rtuWaiting).layer = .untimed ∧
      timingRefusal (.rtuTxd true) 0 { withRtu rtuWaiting with layer := .timed } = none ∧
      rtuWaiting.ch.life ≠ .closed) ∧
    closedChannel.life = .closed ∧ (∀ slot ∈ rtuWaiting.ch.txreg, slot.started = false) ∧
    (rtuBusy.ch.txreg = some ⟨1, query, true⟩ ∧ rtuBusy.ch.life = .opened) ∧
    (let u := rtuWriting.setCh { channel (some ⟨1, query, true⟩) [] [9] with life := .closing }
     u.ch.txreg = some ⟨1, query, true⟩ ∧ u.ch.life = .closing) := by decide

theorem witness_AscWriteCompletion :
    ([0x34000000] = encode (.ascTxd false) ∧ ascIdle.ch.life ≠ .closed) ∧
    closedChannel.life = .closed ∧ (∀ slot ∈ ascIdle.ch.txreg, slot.started = false) ∧
    (ascWriting.ch.txreg = some ⟨5, asciiQuery, true⟩ ∧ ascWriting.ch.life = .opened) ∧
    (let u := ascWriting.setCh { ascWriting.ch with life := .closing }
     u.ch.txreg = some ⟨5, asciiQuery, true⟩ ∧ u.ch.life = .closing) := by decide

theorem witness_RtuCancellation :
    closedChannel.life = .closed ∧ 7 ∉ (busy query true).tags ∧
    (busy query true).life ≠ .closed ∧
    (∃ h ∈ (busy query true).hold, h.tag = 2) ∧
    (¬(∃ h ∈ (busy query false).hold, h.tag = 1) ∧
      (busy query false).txreg = some ⟨1, query, false⟩) ∧
    ((busy query true).txreg = some ⟨1, query, true⟩ ∧ query.kind = .rtu ∧
      (busy query true).life = .opened) ∧
    ({ busy query true with life := .closing } : Channel).life = .closing ∧
    (¬(∃ h ∈ (busy query true).hold, h.tag = 9) ∧ (∀ slot ∈ (busy query true).txreg, slot.tag ≠ 9) ∧
      9 ∈ (busy query true).waiters) := by decide

theorem witness_AscCancellation :
    closedChannel.life = .closed ∧ 7 ∉ (busy asciiQuery true).tags ∧
    (busy asciiQuery true).life ≠ .closed ∧
    (∃ h ∈ (busy asciiQuery true).hold, h.tag = 2) ∧
    (¬(∃ h ∈ (busy asciiQuery false).hold, h.tag = 1) ∧
      (busy asciiQuery false).txreg = some ⟨1, asciiQuery, false⟩) ∧
    ((busy asciiQuery true).txreg = some ⟨1, asciiQuery, true⟩ ∧ asciiQuery.kind = .ascii ∧
      (busy asciiQuery true).life = .opened) ∧
    ({ busy asciiQuery true with life := .closing } : Channel).life = .closing ∧
    (¬(∃ h ∈ (busy asciiQuery true).hold, h.tag = 9) ∧
      (∀ slot ∈ (busy asciiQuery true).txreg, slot.tag ≠ 9) ∧
      9 ∈ (busy asciiQuery true).waiters) := by decide

theorem witness_AscStepStartsTheWrite :
    (let u := ascIdle.setCh (busy asciiQuery false)
     u.ch.life = .opened ∧ u.ch.txreg = some ⟨1, asciiQuery, false⟩ ∧ asciiQuery.data.length ≤ 252) ∧
    252 < (Frame.mk .ascii 0 0 (List.replicate 253 0)).data.length ∧
    closedChannel.life ≠ .opened ∧ (∀ slot ∈ ascWriting.ch.txreg, slot.started = true) := by
  decide +kernel

theorem witness_RtuGracefulClose :
    (RtuInv (rtuIdle.setCh closedChannel) ∧ (rtuIdle.setCh closedChannel).ch.life ≠ .opened) ∧
    (RtuInv rtuRun ∧ rtuRun.ch.life = .opened ∧ rtuRun.st = .reception) ∧
    (RtuInv rtuBusy ∧ rtuBusy.ch.life = .opened ∧ rtuBusy.st = .emission ∧ rtuBusy.eph = .tx) ∧
    (RtuInv rtuWaiting ∧ rtuWaiting.ch.life = .opened ∧ rtuWaiting.st = .init) :=
  ⟨⟨rtuClosed_inv, by decide⟩, ⟨rtuRun_inv, by decide⟩, ⟨rtuBusy_inv, by decide⟩,
    ⟨rtuWaiting_inv, by decide⟩⟩

theorem witness_AscGracefulClose :
    (AscInv Params.default (ascIdle.setCh closedChannel) ∧ closedChannel.life ≠ .opened) ∧
    (AscInv Params.default (ascIdle.setCh (busy asciiQuery true)) ∧
      (busy asciiQuery true).life = .opened ∧ (busy asciiQuery true).writing = true) ∧
    (AscInv Params.default (ascIdle.setCh (busy asciiQuery false)) ∧
      (busy asciiQuery false).writing = false) :=
  ⟨⟨asc_inv _ (closed_inv _) (by decide), by decide⟩,
    ⟨asc_inv _ (busy_inv _ _ _ valid_query.2) (by decide), by decide⟩,
    ⟨asc_inv _ (busy_inv _ _ _ valid_query.2) (by decide), by decide⟩⟩

theorem witness_ForcibleClose :
    (RtuInv (rtuIdle.setCh closedChannel) ∧ closedChannel.life = .closed) ∧
    (RtuInv rtuBusy ∧ rtuBusy.ch.life ≠ .closed ∧ rtuBusy.ch.txreg = some ⟨1, query, true⟩) ∧
    (RtuInv rtuRun ∧ rtuRun.ch.life ≠ .closed ∧ rtuRun.ch.writing = false) ∧
    RtuInv (rtuWriting.setCh { channel (some ⟨1, query, true⟩) [] [9] with life := .closing }) ∧
    AscInv Params.default (ascIdle.setCh closedChannel) ∧
    (AscInv Params.default (ascIdle.setCh (busy asciiQuery true)) ∧
      (busy asciiQuery true).life ≠ .closed) :=
  ⟨⟨rtuClosed_inv, rfl⟩, ⟨rtuBusy_inv, by decide⟩, ⟨rtuRun_inv, by decide⟩, rtuClosing_inv,
    asc_inv _ (closed_inv _) (by decide),
    ⟨asc_inv _ (busy_inv _ _ _ valid_query.2) (by decide), by decide⟩⟩

theorem witness_ClosedIsFinal :
    let s : State := { withRtu (rtuIdle.setCh closedChannel) with asc := ascIdle.setCh closedChannel }
    s.rtu.ch.life = .closed ∧ s.asc.ch.life = .closed ∧ noEffect .rtuStep s = true := by decide

theorem witness_PortIsDisposedAtMostOnce :
    let s : State := withRtu rtuWaiting
    (rtuOf (exec (.rtuCls true) s)).map (·.ch.disposed) = some true ∧ s.rtu.ch.disposed = false ∧
    closedChannel.disposed = true ∧
    (rtuOf (exec .rtuStat (withRtu (rtuIdle.setCh closedChannel)))).map (·.ch.disposed) = some true := by
  decide

theorem witness_StatAndWait :
    9 ∈ (busy query true).tags ∧ 4 ∉ closedChannel.tags ∧ closedChannel.life = .closed ∧
    4 ∉ (busy query true).tags ∧ (busy query true).life ≠ .closed := by decide

theorem witness_CounterAccess : 3 ≤ (3 : Byte).toNat ∧ 3 ≤ (255 : Byte).toNat := by decide

theorem witness_CountersMoveOnlyAtFinalization :
    (rtuOf (exec .rtuT35 (withRtu (rtuCtrlwait [0xFF])))).map (·.cntErr) = some 1 := by decide

theorem witness_FramesOnlyFromTheValidatingOperation :
    (rtuOf (exec .rtuT35 (withRtu (rtuCtrlwait queryRaw)))).map (·.ch.out) = some [.frame query] ∧
    (ascOf (exec (.ascRxc 0x0A true)
      (withAsc { ascIdle with ast := .eof, abuf := asciiQueryRaw.dropLast }))).map (·.ch.out) =
      some [.frame asciiQuery] := by decide +kernel

theorem witness_TracesOnlyGrow :
    (rtuOf (exec .rtuStat (withRtu rtuBusy))).map (·.ch.out) = some [.value 0] := by decide

theorem witness_UnitsShareNothing :
    let s : State := withRtu rtuBusy
    let s' : State := { withRtu rtuBusy with asc := ascWriting, crc := ⟨0, []⟩ }
    s.params = s'.params ∧ s.layer = s'.layer ∧ unitOf (.rtuTxd false) = .rtu ∧ s.rtu = s'.rtu ∧
    (rtuOf (exec (.rtuTxd false) s)).isSome = true := by
  refine ⟨rfl, rfl, rfl, rfl, rfl⟩

theorem witness_ConfigurationIsNeverWritten :
    (rtuOf (step { withRtu rtuRun with stream := at_ 0 [0x21000000] })).map (·.st) = some .ctrlwait := by
  decide

theorem witness_RequestsCompleteExactlyOnce :
    Inv (withRtu rtuWaiting) ∧
    (rtuOf (exec (.rtuCls true) (withRtu rtuWaiting))).map (fun u => completions 2 u.ch.out) = some 1 :=
  ⟨withRtu_inv _ rtuWaiting_inv (by decide), by decide⟩

theorem witness_ReceiversRecover :
    Inv (withRtu rtuRun) ∧ (withRtu rtuRun).layer = .untimed ∧ rtuRun.ch.life = .opened ∧
    rtuRun.st = .reception ∧ (withRtu rtuRun).asc.ch.life = .opened :=
  ⟨withRtu_inv _ rtuRun_inv (by decide), by decide⟩

theorem witness_AsciiReceptorTransitions :
    closedChannel.life ≠ .opened ∧ ascIdle.ch.life = .opened ∧ ascIdle.ast = .idle ∧
    ({ ascIdle with ast := .append } : AscUnit).ast = .append ∧
    ({ ascIdle with ast := .eof } : AscUnit).ast = .eof ∧
    ((0x41 : Byte) ≠ 0x3A ∧ (0x41 : Byte) ≠ 0x0D ∧ (0x41 : Byte) ≠ 0x0A) := by decide

theorem witness_LineFeedDeliversTheFrame :
    let u : AscUnit := { ascIdle with ast := .eof, abuf := asciiQueryRaw.dropLast }
    u.ch.life = .opened ∧ u.ast = .eof ∧
    asciiDecode Params.default (u.abuf ++ [0x0A]) u.anok = .ok asciiQuery := by decide

theorem witness_EncodedFrameIsReceived :
    Inv (withRtu rtuWaiting) ∧ asciiQuery.ValidFor .ascii ∧
    (withRtu rtuWaiting).asc.ch.life = .opened ∧ (withRtu rtuWaiting).asc.ast = .idle ∧
    -- the first and the last hex character
    (∀ j ∈ [1, 14], 1 ≤ j ∧ j + 2 < (asciiEncode asciiQuery).length ∧ 0x42 ∈ hexChars ∧
      (asciiEncode asciiQuery).getD j 0 ≠ 0x42) :=
  ⟨withRtu_inv _ rtuWaiting_inv (by decide), valid_query.2, rfl, rfl, by decide⟩

end Sys2Proof.Tests
end

/-! ### The opcode table and the decoder's formats (30_encoding.md R91, R92) -/

namespace Sys2Proof

/-- The bits that are fixed by a format's pattern, OP included (30_encoding.md R91). -/
def Format.mask : Format → Word
  | .z  => 0xFFFFFFFF
  | .ub => 0xFFFFFF00
  | .rr => 0xFFFFFC00
  | .ra => 0xFFFFFE00
  | .fl => 0xFFFFFEFF
  | .tg => 0xFF00FFFF
  | .sb => 0xFF00EF00
  | .cs => 0xFFFFFF00

/-- A word that fits a row of the table has the row's OP byte. -/
theorem op_of_fits {row : OpcodeRow} (hrow : row ∈ opcodeTable) {w : Word}
    (h : row.fits w = true) : row.op = w.extractLsb' 24 8 := by
  have hmask : ∀ row ∈ opcodeTable, row.mask.extractLsb' 24 8 = BitVec.allOnes 8 := by decide
  rw [OpcodeRow.op, ← beq_iff_eq.1 h, BitVec.extractLsb'_and, hmask row hrow, BitVec.and_allOnes]

/-- The decoder assigns no format to exactly the OP values that no row of the table has (R97). -/
theorem formatOf_eq_none_iff (op : Byte) :
    formatOf op = none ↔ ∀ row ∈ opcodeTable, row.op ≠ op := by
  revert op; decide

/-- A row of the table is its OP byte, under the mask of the format the decoder gives that OP. -/
theorem formatOf_op_of_mem_opcodeTable :
    ∀ row ∈ opcodeTable, (formatOf row.op).map Format.mask = some row.mask ∧
      row.pattern = row.op ++ (0 : BitVec 24) := by
  decide

/-- The fields of a word with a mask on it are the fields of the word with the mask's on them. -/
theorem Fields.ofWord_and (w m : Word) :
    Fields.ofWord (w &&& m) =
      let f := Fields.ofWord w
      let g := Fields.ofWord m
      { op := f.op &&& g.op, t := f.t &&& g.t, r1 := f.r1 &&& g.r1, k := f.k && g.k,
        r2 := f.r2 &&& g.r2, o := f.o && g.o, v := f.v && g.v, b := f.b &&& g.b } := by
  simp [Fields.ofWord, BitVec.extractLsb'_and]

/-- A word that is its OP byte has no other field. -/
theorem Fields.ofWord_op_append (op : Byte) :
    Fields.ofWord (op ++ (0 : BitVec 24)) = { op := op } := by
  revert op; decide

/-- A format's reserved bits are clear exactly when the word has nothing but its OP byte under the
format's mask (R91, R98). -/
theorem Format.reservedClear_ofWord (fmt : Format) (w : Word) :
    fmt.reservedClear (Fields.ofWord w) = true ↔
      w &&& fmt.mask = (Fields.ofWord w).op ++ (0 : BitVec 24) := by
  have inj : Function.Injective Fields.ofWord := fun _ _ => Fields.ofWord_injective
  rw [← inj.eq_iff, Fields.ofWord_and, Fields.ofWord_op_append]
  have ones8 (x : Byte) : x &&& 255#8 = x := BitVec.and_allOnes
  have ones3 (x : BitVec 3) : x &&& 7#3 = x := BitVec.and_allOnes
  have ones2 (x : BitVec 2) : x &&& 3#2 = x := BitVec.and_allOnes
  generalize Fields.ofWord w = f
  cases fmt <;>
    simp [Format.mask, Format.reservedClear, Fields.ofWord, ones8, ones3, ones2, and_assoc,
      and_left_comm, and_comm]

/-- What the decoder does with a word is fixed by the row of the table that has its OP byte: it is
refused for a reserved bit when it does not fit the row, and read by its fields when it does. -/
theorem decode_of_row {row : OpcodeRow} (hrow : row ∈ opcodeTable) {w : Word}
    (hop : row.op = w.extractLsb' 24 8) (ws : List Word) :
    decode (w :: ws) =
      if row.fits w then decodeFields (Fields.ofWord w) ws else .error .reservedBits := by
  obtain ⟨hmask, hpattern⟩ := formatOf_op_of_mem_opcodeTable row hrow
  obtain ⟨fmt, hfmt, hmask⟩ := Option.map_eq_some_iff.1 hmask
  have hfits : row.fits w = fmt.reservedClear (Fields.ofWord w) := by
    rw [Bool.eq_iff_iff, Format.reservedClear_ofWord, OpcodeRow.fits, beq_iff_eq, hpattern, hop,
      hmask]
    rfl
  rw [hop] at hfmt
  simp only [decode, hfits]
  rw [show formatOf (Fields.ofWord w).op = some fmt from hfmt]

/-- A word whose OP byte is in no row of the table is refused as unassigned (R97). -/
theorem decode_unassignedOp {w : Word} (h : ∀ row ∈ opcodeTable, row.op ≠ w.extractLsb' 24 8)
    (ws : List Word) : decode (w :: ws) = .error .unassignedOp := by
  have hfmt : formatOf (Fields.ofWord w).op = none := (formatOf_eq_none_iff _).2 h
  simp [decode, hfmt]

/-! ### Submissions (30_encoding.md R93, R94) -/

/-- A whole payload with an unused byte that is not zero is refused (R98). -/
theorem takePayload_reservedBits {n j : Nat} {ws : List Word} (hlen : ceilDiv n 4 ≤ ws.length)
    (hn : n ≤ j) (hj : j < 4 * ceilDiv n 4)
    (hne : (ws.getD (j / 4) 0).extractLsb' (8 * (j % 4)) 8 ≠ 0) :
    takePayload n ws = .error .reservedBits := by
  let bytes := (ws.take (ceilDiv n 4)).flatMap wordBytes
  have hbytes : j < bytes.length := by
    simp only [bytes, payloadBytes_length, List.length_take]; omega
  have hbyte : bytes[j] ≠ 0 := by
    rw [← List.getD_eq_getElem bytes 0 hbytes, getD_payloadBytes, List.getD_eq_getElem?_getD,
      List.getElem?_take_of_lt (by omega), ← List.getD_eq_getElem?_getD]
    exact hne
  have hmem : bytes[j] ∈ bytes.drop n := by
    rw [List.mem_drop_iff_getElem]
    exact ⟨j - n, by omega, by simp [hn]⟩
  have hall : ¬ (bytes.drop n).all (· == 0) = true := fun h =>
    hbyte (beq_iff_eq.1 (List.all_eq_true.1 h _ hmem))
  simp only [takePayload]
  rw [if_neg (by omega), if_neg hall]

/-- A taken payload is `ceil_div(n, 4)` words of the stream (R93). -/
theorem takePayload_rest {n : Nat} {ws : List Word} {bs : List Byte} {rest : List Word}
    (h : takePayload n ws = .ok (bs, rest)) :
    ceilDiv n 4 ≤ ws.length ∧ rest = ws.drop (ceilDiv n 4) := by
  obtain ⟨rfl, rfl⟩ := takePayload_ok h
  rw [← packPayload_length]
  simp [-packPayload_length]

/-- A submission takes the words of its payload. -/
theorem takeSubmission_rest {make : Tag → FrameKind → Byte → Byte → List Byte → Instr} {f : Fields}
    {ws : List Word} {i : Instr} {rest : List Word}
    (h : takeSubmission make f ws = .ok (i, rest)) :
    ceilDiv (f.b.toNat + 2) 4 ≤ ws.length ∧ rest = ws.drop (ceilDiv (f.b.toNat + 2) 4) := by
  simp only [takeSubmission] at h
  split at h
  · rename_i hp
    cases h
    exact takePayload_rest hp
  · cases h
  · cases h

/-- A counter operation takes no word but its head. -/
theorem takeCounter_rest {make : CounterSelect → Instr} {f : Fields} {ws : List Word} {i : Instr}
    {rest : List Word} (h : takeCounter make f ws = .ok (i, rest)) : rest = ws := by
  simp only [takeCounter] at h
  split at h
  · cases h; rfl
  · cases h

/-- The two OP values of the SB format read a submission (R92). -/
theorem decodeFields_submission {f : Fields} (hop : f.op = 0x23 ∨ f.op = 0x33) (ws : List Word) :
    ∃ make, decodeFields f ws = takeSubmission make f ws := by
  rcases hop with hop | hop
  · exact ⟨.rtuTxs, by simp [decodeFields, hop]⟩
  · exact ⟨.ascTxs, by simp [decodeFields, hop]⟩

/-- Every other operation takes no word but its head (R94). -/
theorem decodeFields_single {f : Fields} (hop : ¬ (f.op = 0x23 ∨ f.op = 0x33)) {ws : List Word}
    {i : Instr} {rest : List Word} (h : decodeFields f ws = .ok (i, rest)) : rest = ws := by
  simp only [decodeFields] at h
  split at h
  case h_10 hsub => exact absurd (.inl (BitVec.eq_of_toNat_eq hsub)) hop
  case h_20 hsub => exact absurd (.inr (BitVec.eq_of_toNat_eq hsub)) hop
  case h_12 | h_13 => exact takeCounter_rest h
  case h_27 => cases h
  all_goals
    cases h
    rfl

/-- What decodes, decodes by its fields. -/
theorem decodeFields_of_decode {w : Word} {ws : List Word} {i : Instr} {rest : List Word}
    (h : decode (w :: ws) = .ok (i, rest)) :
    decodeFields (Fields.ofWord w) ws = .ok (i, rest) := by
  simp only [decode] at h
  split at h
  · cases h
  · split at h
    · exact h
    · cases h

/-- A decoded operation takes as many words as its head word says (R94). -/
theorem decode_rest {w : Word} {ws : List Word} {i : Instr} {rest : List Word}
    (h : decode (w :: ws) = .ok (i, rest)) :
    opLength w ≤ (w :: ws).length ∧ rest = (w :: ws).drop (opLength w) := by
  have h := decodeFields_of_decode h
  simp only [opLength]
  split
  next hop =>
    obtain ⟨make, hmake⟩ := decodeFields_submission hop ws
    obtain ⟨hlen, rfl⟩ := takeSubmission_rest (hmake ▸ h)
    exact ⟨by simp only [List.length_cons]; omega, by rw [Nat.add_comm 1, List.drop_succ_cons]⟩
  next hop => exact ⟨by simp, decodeFields_single hop h⟩

/-- A whole submission with a non-zero unused payload byte is refused (R98). -/
theorem decode_submission_reservedBits {w : Word} {ws : List Word} {j : Nat}
    (hw : w &&& 0xFF00EF00 = 0x23000000 ∨ w &&& 0xFF00EF00 = 0x33000000) :
    let p := (w.extractLsb' 0 8).toNat + 2
    ceilDiv p 4 ≤ ws.length → p ≤ j → j < 4 * ceilDiv p 4 →
    (ws.getD (j / 4) 0).extractLsb' (8 * (j % 4)) 8 ≠ 0 →
    decode (w :: ws) = .error .reservedBits := by
  intro p hlen hp hj hne
  have hrow : ∃ row ∈ opcodeTable, (row.op = 0x23 ∨ row.op = 0x33) ∧ row.fits w = true := by
    rcases hw with hw | hw
    · exact ⟨⟨0x23000000, 0xFF00EF00⟩, by decide, by decide, beq_iff_eq.2 hw⟩
    · exact ⟨⟨0x33000000, 0xFF00EF00⟩, by decide, by decide, beq_iff_eq.2 hw⟩
  obtain ⟨row, hmem, hsub, hfits⟩ := hrow
  have hop : row.op = (Fields.ofWord w).op := op_of_fits hmem hfits
  obtain ⟨make, hmake⟩ := decodeFields_submission (hop ▸ hsub) ws
  rw [decode_of_row hmem hop, if_pos hfits, hmake, takeSubmission]
  have hpay : takePayload ((Fields.ofWord w).b.toNat + 2) ws = .error .reservedBits :=
    takePayload_reservedBits hlen hp hj hne
  rw [hpay]

end Sys2Proof

namespace Sys2Proof.Machine

/-- What the decoder rejects at the head of the stream, the step refuses for the same reason (R97). -/
theorem step_of_decode_error {s : State} {w : StreamWord} {rest : List StreamWord} {r : Reject}
    (hs : s.stream = w :: rest) (h : decode (w.word :: rest.map (·.word)) = .error r) :
    step s = .refused (.undecodable r) := by
  simp [step, stepOnce, State.fetch, hs, h]

/-- Settles O3: the decoder has a format for exactly the OP bytes of the table. -/
theorem unassignedOpRefusesTheStream : Obligations.UnassignedOpRefusesTheStream :=
  fun _ _ _ hs hop => step_of_decode_error hs (decode_unassignedOp hop _)

/-- Settles O4: a word that does not fit the row of its OP byte, or an unused payload byte that is
not zero, is rejected by the decoder. -/
theorem reservedBitsAreRefused : Obligations.ReservedBitsAreRefused := by
  constructor
  · intro s w rest hs row hrow hop hfits
    refine step_of_decode_error hs ?_
    rw [decode_of_row hrow hop, hfits]
    rfl
  · intro s w rest j hs hw p hlen hp hj hne
    exact step_of_decode_error hs
      (decode_submission_reservedBits hw (by rwa [List.length_map]) hp hj hne)

/-- Settles O5: the words a decoded operation leaves are those after its length. -/
theorem operationLengthFromHeadWord : Obligations.OperationLengthFromHeadWord :=
  fun _ _ _ _ h => decode_rest h

end Sys2Proof.Machine

/-! ### Encoded operations at the head of the stream (30_encoding.md R90 to R94) -/

namespace Sys2Proof

/-- A submission is read back from its encoding by the decoder's submission reader (R93). -/
theorem takeSubmission_encodeSubmission
    (make : Tag → FrameKind → Byte → Byte → List Byte → Instr) (op : Byte) (t : Tag) (k : FrameKind)
    (address functionCode : Byte) {data : List Byte} (h : data.length ≤ 255) (rest : List Word) :
    takeSubmission make { op := op, t := t, k := kindBit k, b := BitVec.ofNat 8 data.length }
        (packPayload (address :: functionCode :: data) ++ rest) =
      .ok (make t k address functionCode data, rest) := by
  have hlen : (BitVec.ofNat 8 data.length).toNat + 2 = (address :: functionCode :: data).length := by
    simp only [BitVec.toNat_ofNat, List.length_cons]; omega
  have hkind : kindOf (kindBit k) = k := by cases k <;> rfl
  simp only [takeSubmission, hlen, takePayload_packPayload, hkind]

/-- The decoder reads an encodable operation back from its encoding and leaves the words after it. -/
theorem decode_encode_append {i : Instr} (h : i.wf = true) (rest : List Word) :
    decode (encode i ++ rest) = .ok (i, rest) := by
  cases i with
  | rtuTxs t k address functionCode data | ascTxs t k address functionCode data =>
    have hdata : data.length ≤ 255 := of_decide_eq_true h
    simp only [encode, encodeSubmission, List.cons_append, decode, Fields.ofWord_toWord]
    exact takeSubmission_encodeSubmission _ _ t k address functionCode hdata rest
  | rtuCnr c | rtuCnz c =>
    cases c <;>
      simp [encode, decode, formatOf, Format.reservedClear, decodeFields, takeCounter,
        counterNumber, counterOf]
  | _ => simp [encode, decode, formatOf, Format.reservedClear, decodeFields]

end Sys2Proof

namespace Sys2Proof.Machine

/-- With the encoding of `i` at its head, the stream gives `i` and the words after it (20_memory.md
R71). -/
theorem State.fetch_of_encode {s : State} {i : Instr} {w : StreamWord} {ws rest : List StreamWord}
    (hwf : i.wf = true) (hs : s.stream = w :: ws ++ rest)
    (henc : (w :: ws).map (·.word) = encode i) :
    s.fetch = .operation i w.stamp rest.length := by
  have hwords : w.word :: (ws ++ rest).map (·.word) = encode i ++ rest.map (·.word) := by
    rw [← henc]; simp
  rw [List.cons_append] at hs
  simp only [State.fetch, hs, hwords, decode_encode_append hwf, List.length_map]

/-- With the encoding of `i` at the head of the stream, a step refuses it by `streamRefusal` or
executes it. -/
theorem step_of_encode {s : State} {i : Instr} {w : StreamWord} {ws rest : List StreamWord}
    (hwf : i.wf = true) (hs : s.stream = w :: ws ++ rest)
    (henc : (w :: ws).map (·.word) = encode i) :
    step s = ((streamRefusal i w.stamp s).map Host.Outcome.refused).getD
      (exec i ((s.keepLast rest.length).clocked i w.stamp)) := by
  simp only [step, stepOnce, State.fetch_of_encode hwf hs henc]
  cases streamRefusal i w.stamp s <;> rfl

/-- The only refusal an operation's own rules know is the reuse of a tag (30_encoding.md R95). -/
theorem exec_refused {i : Instr} {s : State} {r : Refusal} (h : exec i s = .refused r) :
    r = .tagReuse := by
  cases i with
  | rtuTxs | ascTxs | rtuWait | ascWait =>
    simp only [exec, execRtuTxs, execAscTxs, execRtuWait, execAscWait] at h
    split at h <;> cases h
    rfl
  | ascStep =>
    simp only [exec, execAscStep] at h
    split at h <;> [split at h; skip] <;> cases h
  | rtuCxl | ascCxl =>
    simp only [exec, execRtuCxl, execAscCxl] at h
    split at h <;> [skip; split at h] <;> cases h
  | rtuRxc | rtuT15 | rtuT35 | rtuTxd | rtuCls | rtuStep | ascRxc | ascTxd | ascCls =>
    simp only [exec, execRtuRxc, execRtuT15, execRtuT35, execRtuTxd, execRtuCls, execRtuStep,
      execAscRxc, execAscTxd, execAscCls] at h
    split at h <;> cases h
  | _ => cases h

/-! ### The timed layer (41_rtu_receiver.md R190 to R192) -/

/-- When the awaited expiry is past its window (R192). -/
theorem RtuUnit.overdue_iff (u : RtuUnit) (slack τ : Nat) :
    u.overdue slack τ = true ↔
      (u.arm15 = true ∧ u.d15 + slack < τ) ∨
      (u.arm35 = true ∧ u.arm15 = false ∧ u.d35 + slack < τ) := by
  cases h15 : u.arm15 <;> cases h35 : u.arm35 <;>
    simp [RtuUnit.overdue, RtuUnit.awaitedDeadline, h15, h35]

/-- The timed layer's check of an RTU operation: the clock, then the awaited expiry (R190, R192). -/
theorem timingRefusal_timed {s : State} {i : Instr} {τ : Nat} (hl : s.layer = .timed)
    (hi : unitOf i = .rtu) :
    timingRefusal i τ s =
      if τ < s.rtu.now then some .timeReversed
      else if s.rtu.overdue s.params.timerSlack τ then some .timerOverdue
      else none := by
  simp [timingRefusal, hl, hi]

/-- In the timed layer an RTU operation that does not go back in time is refused as overdue exactly
when it is past the window of the awaited expiry (R192). -/
theorem streamRefusal_eq_timerOverdue_iff {s : State} {i : Instr} {τ : Nat}
    (hl : s.layer = .timed) (hi : unitOf i = .rtu) (hτ : s.rtu.now ≤ τ) :
    streamRefusal i τ s = some .timerOverdue ↔ s.rtu.overdue s.params.timerSlack τ = true := by
  rw [streamRefusal, timingRefusal_timed hl hi, if_neg (Nat.not_lt.2 hτ)]
  split
  next hover => simp [hover]
  next hover =>
    rcases portRefusal_cases i s with hport | ⟨hport, -⟩ <;> simp [hport, hover]

/-- In the timed layer no RTU operation is taken past the window of the awaited expiry (R191, R192). -/
theorem overdue_eq_false_of_streamRefusal {s : State} {i : Instr} {τ : Nat}
    (hl : s.layer = .timed) (hi : unitOf i = .rtu) (h : streamRefusal i τ s = none) :
    s.rtu.overdue s.params.timerSlack τ = false := by
  have htiming := (streamRefusal_eq_none.1 h).1
  rw [timingRefusal_timed hl hi] at htiming
  split_ifs at htiming with _ hover
  exact Bool.eq_false_of_not_eq_true hover

/-- Settles O9: the timing check answers overdue exactly past the window of the awaited expiry, and
nothing else answers it. -/
theorem overdueTimersRefuseTheStream : Obligations.OverdueTimersRefuseTheStream := by
  intro s i w ws rest hwf hs henc hl hi hτ
  rw [← RtuUnit.overdue_iff, ← streamRefusal_eq_timerOverdue_iff hl hi hτ,
    step_of_encode hwf hs henc]
  cases hr : streamRefusal i w.stamp s with
  | some r => simp
  | none =>
    simp only [Option.map_none, Option.getD_none, reduceCtorEq, iff_false]
    intro hexec
    cases exec_refused hexec

/-- A step of the timed layer that completes with an RTU operation of one word at the head of the stream
executes it at the word's timestamp, which is not past the window of the awaited expiry (R191, R192). -/
theorem exec_of_timed_step {s t : State} {i : Instr} {w : StreamWord} {rest : List StreamWord}
    (hwf : i.wf = true) (hl : s.layer = .timed) (hi : unitOf i = .rtu) (hs : s.stream = w :: rest)
    (henc : [w.word] = encode i) (h : step s = .next t) :
    s.rtu.overdue s.params.timerSlack w.stamp = false ∧
      exec i ((s.keepLast rest.length).setRtu { s.rtu with now := w.stamp }) = .next t := by
  rw [step_of_encode (ws := []) hwf hs henc] at h
  cases hr : streamRefusal i w.stamp s with
  | some r => simp [hr] at h
  | none =>
    refine ⟨overdue_eq_false_of_streamRefusal hl hi hr, ?_⟩
    simpa [hr, State.clocked, hi] using h

/-- RTU.T15 changes `arm15` only when it takes effect (R180). -/
theorem t15Effective_of_arm15_ne {s t : State} (h : exec .rtuT15 s = .next t)
    (hne : t.rtu.arm15 ≠ s.rtu.arm15) : s.rtu.t15Effective s.layer = true := by
  simp only [exec, execRtuT15] at h
  split at h
  next heff => exact heff
  next => cases h; exact absurd rfl hne

/-- RTU.T35 changes `arm35` only when it takes effect (R181). -/
theorem t35Effective_of_arm35_ne {s t : State} (h : exec .rtuT35 s = .next t)
    (hne : t.rtu.arm35 ≠ s.rtu.arm35) : s.rtu.t35Effective s.layer = true := by
  simp only [exec, execRtuT35] at h
  split at h
  next heff => exact heff
  next => cases h; exact absurd rfl hne

/-- What it takes for RTU.T15 to have effect (R165, R170, R191). -/
theorem RtuUnit.t15Effective_iff (u : RtuUnit) (l : Layer) :
    u.t15Effective l = true ↔
      u.ch.life ≠ .closed ∧ u.arm15 = true ∧ (l = .untimed ∨ u.d15 ≤ u.now) := by
  cases l <;> simp [RtuUnit.t15Effective, RtuUnit.reached, and_assoc]

/-- What it takes for RTU.T35 to have effect (R165, R171, R191). -/
theorem RtuUnit.t35Effective_iff (u : RtuUnit) (l : Layer) :
    u.t35Effective l = true ↔
      u.ch.life ≠ .closed ∧ u.arm35 = true ∧ u.arm15 = false ∧ (l = .untimed ∨ u.d35 ≤ u.now) := by
  cases l <;> simp [RtuUnit.t35Effective, RtuUnit.reached, and_assoc]

/-- Settles O10: an expiry with effect is due, and the step that took it found the timer not overdue. -/
theorem timersFireInTheirWindow : Obligations.TimersFireInTheirWindow := by
  intro s t w rest hinv hl hs hstep
  have hslack : s.params.timerSlack ≤ hct s.rtu.cfg := by
    have := hinv.params
    simp only [paramsValid, Bool.and_eq_true, decide_eq_true_eq] at this
    exact this.2
  refine ⟨hslack, fun henc hne => ?_, fun henc hne => ?_⟩
  · obtain ⟨hover, hexec⟩ := exec_of_timed_step rfl hl rfl hs henc hstep
    have heff := t15Effective_of_arm15_ne hexec hne
    rw [RtuUnit.t15Effective_iff] at heff
    obtain ⟨-, harm, hdue⟩ := heff
    rw [← Bool.not_eq_true, RtuUnit.overdue_iff] at hover
    exact ⟨hdue.resolve_left (by simp [hl]), Nat.not_lt.1 fun hlt => hover (.inl ⟨harm, hlt⟩)⟩
  · obtain ⟨hover, hexec⟩ := exec_of_timed_step rfl hl rfl hs henc hstep
    have heff := t35Effective_of_arm35_ne hexec hne
    rw [RtuUnit.t35Effective_iff] at heff
    obtain ⟨-, harm, harm15, hdue⟩ := heff
    rw [← Bool.not_eq_true, RtuUnit.overdue_iff] at hover
    exact ⟨hdue.resolve_left (by simp [hl]),
      Nat.not_lt.1 fun hlt => hover (.inr ⟨harm, harm15, hlt⟩)⟩

end Sys2Proof.Machine

/-! ### The durations (41_rtu_receiver.md R160 to R162) -/

namespace Sys2Proof

/-- `ceil_div` is Mathlib's ceiling division. -/
theorem ceilDiv_eq_ceilDiv (a b : Nat) : ceilDiv a b = a ⌈/⌉ b := rfl

/-- `ceil_div(a, b)` is the least natural that is enough (00_scope.md R11). -/
theorem ceilDiv_le_iff {a b q : Nat} (hb : 0 < b) : ceilDiv a b ≤ q ↔ a ≤ q * b := by
  rw [ceilDiv_eq_ceilDiv, ceilDiv_le_iff_le_mul hb, Nat.mul_comm]

end Sys2Proof

namespace Sys2Proof.Machine

/-- The bits of a character, with the parity bit there or not (R160). -/
theorem charBits_eq (c : LineConfig) :
    charBits c = 1 + c.dataBits + (if c.parity = .none then 0 else 1) + c.stopBits := by
  cases hp : c.parity <;> simp [charBits, parityBits, hp]

/-- A valid configuration has a baud rate (00_scope.md R7). -/
theorem baud_pos_of_configValid {c : LineConfig} (h : configValid c = true) : 0 < c.baud := by
  simp only [configValid, Bool.and_eq_true, decide_eq_true_eq] at h
  obtain ⟨⟨⟨⟨hbaud, -⟩, -⟩, -⟩, -⟩ := h
  exact hbaud

/-- Settles O36: each duration is a ceiling division, which is the least natural that is enough. -/
theorem timerDurations : Obligations.TimerDurations := by
  intro c hc bits
  have hbits : charBits c = bits := charBits_eq c
  refine ⟨fun q => ?_, rfl, fun q => (ceilDiv_le_iff Nat.two_pos).symm,
    fun q => (ceilDiv_le_iff Nat.two_pos).symm⟩
  rw [charTime, hbits, ceilDiv_le_iff (baud_pos_of_configValid hc)]

/-! ### RTU.RXC (41_rtu_receiver.md R172 to R179) -/

/-- A character's overrun is acknowledged to the port, and nothing else changes (R172). -/
theorem RtuUnit.ackOverrun_eq (u : RtuUnit) (c : Character) :
    u.ackOverrun c =
      u.setCh { u.ch with out := u.ch.out ++ (if c.overrun then [.portOvrAck] else []) } := by
  cases h : c.overrun <;> simp [RtuUnit.ackOverrun, h, RtuUnit.setCh, Channel.emit, Channel.emitAll]

/-- A character in CLOSED has no effect (R165). -/
theorem exec_rtuRxc_of_closed {s : State} (h : s.rtu.ch.life = .closed) (b : Byte)
    (valid overrun : Bool) : exec (.rtuRxc b valid overrun) s = .next s :=
  if_pos h

/-- A character outside CLOSED: the acknowledgement, then the rule of the receiver's state (R172). -/
theorem exec_rtuRxc_of_not_closed {s : State} (h : s.rtu.ch.life ≠ .closed) (b : Byte)
    (valid overrun : Bool) :
    exec (.rtuRxc b valid overrun) s =
      .next (s.setRtu ((s.rtu.setCh { s.rtu.ch with
        out := s.rtu.ch.out ++ (if overrun then [.portOvrAck] else []) }).receive
          ⟨b, valid, overrun⟩)) := by
  rw [← RtuUnit.ackOverrun_eq s.rtu ⟨b, valid, overrun⟩]
  exact if_neg h

/-! The state rules of a character, whose acknowledgement has changed the channel only. -/

theorem RtuUnit.receive_of_init {u : RtuUnit} (h : u.st = .init) (ch : Channel) (c : Character) :
    (u.setCh ch).receive c = (u.setCh ch).startT35 := by
  simp only [RtuUnit.receive, RtuUnit.setCh_st, h]

theorem RtuUnit.receive_of_idle {u : RtuUnit} (h : u.st = .idle) (ch : Channel) (c : Character) :
    (u.setCh ch).receive c = (u.setCh ch).startRun c := by
  simp only [RtuUnit.receive, RtuUnit.setCh_st, h]

theorem RtuUnit.receive_of_reception {u : RtuUnit} (h : u.st = .reception) (ch : Channel)
    (c : Character) : (u.setCh ch).receive c = (u.setCh ch).extendRun c := by
  simp only [RtuUnit.receive, RtuUnit.setCh_st, h]

theorem RtuUnit.receive_of_ctrlwait {u : RtuUnit} (h : u.st = .ctrlwait) (ch : Channel)
    (c : Character) : (u.setCh ch).receive c = (u.setCh ch).spoilRun c := by
  simp only [RtuUnit.receive, RtuUnit.setCh_st, h]

theorem RtuUnit.receive_of_settle {u : RtuUnit} (h : u.st = .emission) (hp : u.eph = .settle)
    (ch : Channel) (c : Character) : (u.setCh ch).receive c = (u.setCh ch).startT35 := by
  simp only [RtuUnit.receive, RtuUnit.setCh_st, RtuUnit.setCh_eph, h, hp]

theorem RtuUnit.receive_of_tx {u : RtuUnit} (h : u.st = .emission) (hp : u.eph = .tx)
    (ch : Channel) (c : Character) : (u.setCh ch).receive c = u.setCh ch := by
  simp only [RtuUnit.receive, RtuUnit.setCh_st, RtuUnit.setCh_eph, h, hp]

/-- The receive buffer is full at 256 characters (R175). -/
theorem RtuUnit.full_eq (u : RtuUnit) : u.full = decide (256 ≤ u.buf.length) := rfl

/-- Settles O23: outside CLOSED the state rules restart the 3.5 wait or do nothing. -/
theorem charactersOutsideARunAreDiscarded : Obligations.CharactersOutsideARunAreDiscarded := by
  intro s b valid overrun acked
  refine ⟨fun hl => exec_rtuRxc_of_closed hl _ _ _, fun hl hst => ?_, fun hl hst hp => ?_⟩
  · rw [exec_rtuRxc_of_not_closed hl]
    rcases hst with hst | ⟨hst, hp⟩
    · rw [RtuUnit.receive_of_init hst]; rfl
    · rw [RtuUnit.receive_of_settle hst hp]; rfl
  · rw [exec_rtuRxc_of_not_closed hl, RtuUnit.receive_of_tx hst hp]; rfl

/-- Settles O24: the state rule of IDLE, field by field. -/
theorem characterInIdleStartsARun : Obligations.CharacterInIdleStartsARun := by
  intro s b valid overrun hl hst
  rw [exec_rtuRxc_of_not_closed hl, RtuUnit.receive_of_idle hst]
  rfl

/-- Settles O25: the state rule of RECEPTION, with room in the buffer and without. -/
theorem characterInReceptionExtendsTheRun : Obligations.CharacterInReceptionExtendsTheRun := by
  intro s b valid overrun hl hst extended
  rw [exec_rtuRxc_of_not_closed hl, RtuUnit.receive_of_reception hst]
  refine ⟨fun hlen => ?_, fun hlen => ?_⟩
  · simp [extended, State.setRtu, RtuUnit.extendRun, RtuUnit.full_eq, Nat.not_le.2 hlen,
      Character.nok, Bool.or_assoc, RtuUnit.startT15, RtuUnit.startT35, RtuUnit.setCh]
  · simp [extended, State.setRtu, RtuUnit.extendRun, RtuUnit.full_eq, hlen,
      RtuUnit.startT15, RtuUnit.startT35, RtuUnit.setCh]

/-- Settles O26: the state rule of CTRLWAIT, field by field. -/
theorem characterInCtrlwaitSpoilsTheRun : Obligations.CharacterInCtrlwaitSpoilsTheRun := by
  intro s b valid overrun hl hst
  rw [exec_rtuRxc_of_not_closed hl, RtuUnit.receive_of_ctrlwait hst]
  rfl

/-! ### The expiries (41_rtu_receiver.md R180 to R186) -/

/-- An RTU.T15 that takes effect (R180). -/
theorem exec_rtuT15_of_effective {s : State} (h : s.rtu.t15Effective s.layer = true) :
    exec .rtuT15 s = .next (s.setRtu { s.rtu with arm15 := false, st := .ctrlwait }) :=
  if_pos h

/-- An RTU.T15 that does not take effect (R170). -/
theorem exec_rtuT15_of_not_effective {s : State} (h : ¬ s.rtu.t15Effective s.layer = true) :
    exec .rtuT15 s = .next s :=
  if_neg h

/-- An RTU.T35 that takes effect (R181). -/
theorem exec_rtuT35_of_effective {s : State} (h : s.rtu.t35Effective s.layer = true) :
    exec .rtuT35 s = .next (s.setRtu (s.rtu.silence s.params)) :=
  if_pos h

/-- An RTU.T35 that does not take effect (R171). -/
theorem exec_rtuT35_of_not_effective {s : State} (h : ¬ s.rtu.t35Effective s.layer = true) :
    exec .rtuT35 s = .next s :=
  if_neg h

/-! The state rules of an RTU.T35 that takes effect. -/

theorem RtuUnit.silence_of_init {u : RtuUnit} (h : u.st = .init) (p : Params) :
    u.silence p = { u with arm35 := false, st := .idle } := by simp only [RtuUnit.silence, h]

theorem RtuUnit.silence_of_emission {u : RtuUnit} (h : u.st = .emission) (p : Params) :
    u.silence p = { u with arm35 := false, st := .idle, eph := .tx } := by
  simp only [RtuUnit.silence, h]

theorem RtuUnit.silence_of_ctrlwait {u : RtuUnit} (h : u.st = .ctrlwait) (p : Params) :
    u.silence p = ({ u with arm35 := false } : RtuUnit).endRun p := by
  simp only [RtuUnit.silence, h]

/-- Settles O27: whether the expiry takes effect decides it. -/
theorem shortTimerEndsTheMainBytes : Obligations.ShortTimerEndsTheMainBytes := by
  intro s
  refine ⟨fun hoff => exec_rtuT15_of_not_effective ?_, fun hl harm hdue =>
    exec_rtuT15_of_effective ((RtuUnit.t15Effective_iff _ _).2 ⟨hl, harm, hdue⟩)⟩
  rw [RtuUnit.t15Effective_iff]
  rintro ⟨hl, harm, -⟩
  simp [hl, harm] at hoff

/-- Settles O28: whether the expiry takes effect, then the state rule of INIT and of EMISSION. -/
theorem longTimerEndsASilenceWait : Obligations.LongTimerEndsASilenceWait := by
  intro s
  refine ⟨fun hoff => exec_rtuT35_of_not_effective ?_, fun hl h35 h15 hdue => ?_⟩
  · rw [RtuUnit.t35Effective_iff]
    rintro ⟨hl, h35, h15, -⟩
    simp [hl, h35, h15] at hoff
  · rw [exec_rtuT35_of_effective ((RtuUnit.t35Effective_iff _ _).2 ⟨hl, h35, h15, hdue⟩)]
    refine ⟨fun hst => ?_, fun hst _ => ?_⟩
    · rw [RtuUnit.silence_of_init hst]; rfl
    · rw [RtuUnit.silence_of_emission hst]; rfl

/-- A run is clean when it is not NOK, has 4 characters or more and its CRC residue is 0 (R185). -/
theorem runVerdict_eq_clean {nok : Bool} {buf : List Byte} :
    runVerdict nok buf = .clean ↔ nok = false ∧ 4 ≤ buf.length ∧ crc16 buf = 0 := by
  unfold runVerdict
  split_ifs <;> simp_all

/-- The first thing the end of a run looks at is NOK (R185). -/
theorem runVerdict_eq_nok {nok : Bool} {buf : List Byte} :
    runVerdict nok buf = .nok ↔ nok = true := by
  unfold runVerdict
  split_ifs <;> simp_all

/-- The message counter counts the clean runs (R185). -/
theorem RtuUnit.countRun_cntMsg (u : RtuUnit) (p : Params) :
    (u.countRun p).cntMsg =
      if runVerdict u.nok u.buf = .clean then saturatingSucc u.cntMsg else u.cntMsg := by
  unfold RtuUnit.countRun
  cases runVerdict u.nok u.buf <;> rfl

/-- The error counter counts the runs that are not clean (R185). -/
theorem RtuUnit.countRun_cntErr (u : RtuUnit) (p : Params) :
    (u.countRun p).cntErr =
      if runVerdict u.nok u.buf = .clean then u.cntErr else saturatingSucc u.cntErr := by
  unfold RtuUnit.countRun
  cases runVerdict u.nok u.buf <;> rfl

/-- The overrun counter counts the NOK runs that count as an overrun (R185). -/
theorem RtuUnit.countRun_cntOvr (u : RtuUnit) (p : Params) :
    (u.countRun p).cntOvr =
      if runVerdict u.nok u.buf = .nok ∧ countsAsOverrun p u.ovr u.ovf = true
      then saturatingSucc u.cntOvr else u.cntOvr := by
  unfold RtuUnit.countRun
  cases runVerdict u.nok u.buf <;> simp

/-- The frame of a clean run surfaces while OPEN (R185, R186). -/
theorem RtuUnit.countRun_ch (u : RtuUnit) (p : Params) :
    (u.countRun p).ch =
      if runVerdict u.nok u.buf = .clean ∧ u.ch.life = .opened
      then u.ch.emit (.frame (rtuFields u.buf)) else u.ch := by
  unfold RtuUnit.countRun
  cases runVerdict u.nok u.buf <;> simp

/-- Counting a run changes the counters and the trace, and nothing else (R185). -/
theorem RtuUnit.countRun_eq (u : RtuUnit) (p : Params) :
    u.countRun p = { u with
      ch := (u.countRun p).ch
      cntMsg := (u.countRun p).cntMsg
      cntErr := (u.countRun p).cntErr
      cntOvr := (u.countRun p).cntOvr } := by
  unfold RtuUnit.countRun
  cases runVerdict u.nok u.buf <;> rfl

/-- To emit nothing changes nothing. -/
@[simp] theorem Channel.emitAll_nil (c : Channel) : c.emitAll [] = c := by simp [Channel.emitAll]

/-- The end of a run while OPEN: the counters, the frame of a clean run, and IDLE with nothing
gathered (R183, R185). -/
theorem RtuUnit.endRun_of_opened {u : RtuUnit} (h : u.ch.life = .opened) (p : Params) :
    u.endRun p = { u with
      ch := u.ch.emitAll
        (if runVerdict u.nok u.buf = .clean then [.frame (rtuFields u.buf)] else [])
      st := .idle, buf := [], nok := false, ovr := false, ovf := false
      cntMsg := (u.countRun p).cntMsg
      cntErr := (u.countRun p).cntErr
      cntOvr := (u.countRun p).cntOvr } := by
  have hch : (u.countRun p).ch = u.ch.emitAll
      (if runVerdict u.nok u.buf = .clean then [.frame (rtuFields u.buf)] else []) := by
    rw [RtuUnit.countRun_ch]
    by_cases hv : runVerdict u.nok u.buf = .clean <;> simp [hv, h, Channel.emit]
  have hlife : (u.countRun p).ch.life = .opened := by rw [hch]; exact h
  simp only [RtuUnit.endRun, RtuUnit.finalize, hlife, reduceCtorEq, if_false]
  rw [RtuUnit.countRun_eq, hch]

/-- The end of a run while CLOSING: the counters, then the close (R183, R186). -/
theorem RtuUnit.endRun_of_closing {u : RtuUnit} (h : u.ch.life = .closing) (p : Params) :
    u.endRun p = RtuUnit.completeClose { u with
      cntMsg := (u.countRun p).cntMsg
      cntErr := (u.countRun p).cntErr
      cntOvr := (u.countRun p).cntOvr } := by
  have hch : (u.countRun p).ch = u.ch := by rw [RtuUnit.countRun_ch]; simp [h]
  simp only [RtuUnit.endRun, RtuUnit.finalize, hch, h, if_true]
  rw [RtuUnit.countRun_eq, hch]
  rfl

/-- Settles O29: the end of the run that the expiry finds in CTRLWAIT. -/
theorem longTimerFinalizesTheRun : Obligations.LongTimerFinalizesTheRun := by
  intro s hst h35 h15 hdue u clean overrun sat
  let ended : RtuUnit := { u with arm35 := false }
  let shown : List Event :=
    if runVerdict ended.nok ended.buf = .clean then [.frame (rtuFields ended.buf)] else []
  have hclean : runVerdict ended.nok ended.buf = .clean ↔ clean := runVerdict_eq_clean
  have hoverrun : runVerdict ended.nok ended.buf = .nok ∧
      countsAsOverrun s.params ended.ovr ended.ovf = true ↔ overrun := by
    rw [runVerdict_eq_nok]
    simp [overrun, countsAsOverrun, ended]
  have hexec (hl : u.ch.life ≠ .closed) :
      exec .rtuT35 s = .next (s.setRtu (ended.endRun s.params)) := by
    rw [exec_rtuT35_of_effective ((RtuUnit.t35Effective_iff _ _).2 ⟨hl, h35, h15, hdue⟩),
      RtuUnit.silence_of_ctrlwait hst]
  refine ⟨(ended.countRun s.params).cntMsg, (ended.countRun s.params).cntErr,
    (ended.countRun s.params).cntOvr, fun hc => ?_, fun hc => ?_, fun ho => ?_, fun ho => ?_,
    fun hl => ⟨shown, fun hc => if_pos (hclean.2 hc), fun hc => if_neg (hc ∘ hclean.1), ?_⟩,
    fun hl => ?_⟩
  · rw [RtuUnit.countRun_cntMsg, RtuUnit.countRun_cntErr, if_pos (hclean.2 hc),
      if_pos (hclean.2 hc)]
    exact ⟨rfl, rfl⟩
  · rw [RtuUnit.countRun_cntMsg, RtuUnit.countRun_cntErr, if_neg (hc ∘ hclean.1),
      if_neg (hc ∘ hclean.1)]
    exact ⟨rfl, rfl⟩
  · rw [RtuUnit.countRun_cntOvr, if_pos (hoverrun.2 ho)]; rfl
  · rw [RtuUnit.countRun_cntOvr, if_neg (ho ∘ hoverrun.1)]
  · rw [hexec (by simp [hl]), RtuUnit.endRun_of_opened (u := ended) hl]; rfl
  · rw [hexec (by simp [hl]), RtuUnit.endRun_of_closing (u := ended) hl]
    have hoff : u.arm15 = false := h15
    simp only [hoff]
    rfl

end Sys2Proof.Machine

/-! ### The CRC residue (40_checksum.md R121) -/

namespace Sys2Proof.Machine

/-- The bit shifted out comes back as the top bit, for 0xA001 has its top bit set. -/
theorem crcShift_msb (c : BitVec 16) : (crcShift c).getLsbD 15 = c.getLsbD 0 := by
  unfold crcShift
  split_ifs with h <;> simp_all

/-- A shift of the CRC step loses nothing. -/
theorem crcShift_injective : Function.Injective crcShift := by
  intro c d h
  have hlow : c.getLsbD 0 = d.getLsbD 0 := by rw [← crcShift_msb, h, crcShift_msb]
  have hhigh : c >>> 1 = d >>> 1 := by
    simp only [crcShift, hlow] at h
    split_ifs at h
    · exact (BitVec.xor_left_inj _).1 h
    · exact h
  apply BitVec.eq_of_getLsbD_eq
  intro i _
  cases i with
  | zero => exact hlow
  | succ i => simpa [Nat.add_comm 1] using congrArg (·.getLsbD i) hhigh

/-- Shifts that shift out only zeros divide by two and no more. -/
theorem crcShift_iterate_shiftLeft (y : Byte) {n : Nat} (hn : n ≤ 8) :
    crcShift^[n] (y.setWidth 16 <<< n) = y.setWidth 16 := by
  induction n with
  | zero => simp
  | succ n ih =>
    have hstep : crcShift (y.setWidth 16 <<< (n + 1)) = y.setWidth 16 <<< n := by
      have hlow : (y.setWidth 16 <<< (n + 1)).getLsbD 0 = false := by simp
      rw [crcShift, hlow, if_neg Bool.false_ne_true]
      apply BitVec.eq_of_getLsbD_eq
      intro i hi
      have htop : y.getLsbD (i - n) = true → i - n < 8 := BitVec.lt_of_getLsbD
      simp only [BitVec.getLsbD_ushiftRight, BitVec.getLsbD_shiftLeft, BitVec.getLsbD_setWidth]
      grind
    rw [Function.iterate_succ_apply, hstep, ih (by omega)]

/-- The step leaves 0 only where the byte is what the accumulator holds. -/
theorem crcStep_eq_zero_iff {c : BitVec 16} {y : Byte} : crcStep c y = 0 ↔ c = y.setWidth 16 := by
  have hzero : crcShift^[8] 0 = 0 := by decide
  rw [crcStep, ← hzero, (crcShift_injective.iterate 8).eq_iff]
  exact BitVec.xor_eq_zero_iff

/-- The step leaves one byte in the accumulator only where the byte given is the accumulator's low one,
and what it leaves is the high one. -/
theorem crcStep_eq_setWidth_iff {c : BitVec 16} {x y : Byte} :
    crcStep c x = y.setWidth 16 ↔ x = crcLow c ∧ y = crcHigh c := by
  rw [crcStep, ← crcShift_iterate_shiftLeft y le_rfl, (crcShift_injective.iterate 8).eq_iff]
  constructor
  · intro h
    obtain rfl : c = y.setWidth 16 <<< 8 ^^^ x.setWidth 16 := by
      rw [← h, BitVec.xor_assoc, BitVec.xor_self, BitVec.xor_zero]
    constructor <;>
      (apply BitVec.eq_of_getLsbD_eq
       intro i hi
       simp only [crcLow, crcHigh, BitVec.getLsbD_extractLsb', BitVec.getLsbD_xor,
         BitVec.getLsbD_shiftLeft, BitVec.getLsbD_setWidth]
       grind)
  · rintro ⟨rfl, rfl⟩
    apply BitVec.eq_of_getLsbD_eq
    intro i hi
    simp only [crcLow, crcHigh, BitVec.getLsbD_extractLsb', BitVec.getLsbD_xor,
      BitVec.getLsbD_shiftLeft, BitVec.getLsbD_setWidth]
    grind

/-- A string's CRC is 0 exactly when its last two bytes are the CRC of the bytes before them, low byte
first (R121). -/
theorem crc16_append_pair_eq_zero_iff (m : List Byte) (x y : Byte) :
    crc16 (m ++ [x, y]) = 0 ↔ x = crcLow (crc16 m) ∧ y = crcHigh (crc16 m) := by
  rw [crc16_append, List.foldl_cons, List.foldl_cons, List.foldl_nil, crcStep_eq_zero_iff,
    crcStep_eq_setWidth_iff]

end Sys2Proof.Machine

/-! ### Whole runs (41_rtu_receiver.md R188)

A run is gathered operation by operation: `Gathered s ops t` says what the receiver holds after the
operations `ops` of a run begun in `s`. The statement about whole runs is its value at the end. -/

namespace Sys2Proof.Machine

/-- An operation of a run: a character or a 1.5 expiry. -/
def RunOp (i : Instr) : Prop := i = .rtuT15 ∨ ∃ b valid overrun, i = .rtuRxc b valid overrun

/-- The bytes the operations of a run deliver. -/
def runBytes (ops : List Instr) : List Byte := (rtuCharacters ops).map (·.byte)

/-- The overrun acknowledgements a run gives the port (R172). -/
def runAcks (ops : List Instr) : List Event :=
  ((rtuCharacters ops).filter (·.overrun)).map fun _ => .portOvrAck

/-- Nothing has made the run NOK: its characters are good, they fit the buffer, and none came after a
1.5 expiry (R174, R175, R177). -/
structure RunIntact (ops : List Instr) : Prop where
  good : ∀ x ∈ rtuCharacters ops, x.valid = true ∧ x.overrun = false
  fits : (runBytes ops).length ≤ 256
  inTime : ops.Pairwise fun a b => a = .rtuT15 → b = .rtuT15

/-- The run ends clean: intact, long enough, and with residue 0 (R185). -/
def RunClean (ops : List Instr) : Prop :=
  RunIntact ops ∧ 4 ≤ (runBytes ops).length ∧ crc16 (runBytes ops) = 0

@[simp] theorem rtuCharacters_append (ops more : List Instr) :
    rtuCharacters (ops ++ more) = rtuCharacters ops ++ rtuCharacters more :=
  List.filterMap_append

@[simp] theorem rtuCharacters_t15 : rtuCharacters [.rtuT15] = [] := rfl

@[simp] theorem rtuCharacters_rxc (b : Byte) (valid overrun : Bool) :
    rtuCharacters [.rtuRxc b valid overrun] = [⟨b, valid, overrun⟩] := rfl

@[simp] theorem runBytes_append (ops more : List Instr) :
    runBytes (ops ++ more) = runBytes ops ++ runBytes more := by simp [runBytes]

@[simp] theorem runBytes_t15 : runBytes [.rtuT15] = [] := rfl

@[simp] theorem runBytes_rxc (b : Byte) (valid overrun : Bool) :
    runBytes [.rtuRxc b valid overrun] = [b] := rfl

@[simp] theorem runAcks_append (ops more : List Instr) :
    runAcks (ops ++ more) = runAcks ops ++ runAcks more := by simp [runAcks]

@[simp] theorem runAcks_t15 : runAcks [.rtuT15] = [] := rfl

@[simp] theorem runAcks_rxc (b : Byte) (valid overrun : Bool) :
    runAcks [.rtuRxc b valid overrun] = if overrun then [.portOvrAck] else [] := by
  cases overrun <;> rfl

/-- Good characters are not acknowledged as overrun. -/
theorem RunIntact.runAcks_eq_nil {ops : List Instr} (h : RunIntact ops) : runAcks ops = [] := by
  have hnone : (rtuCharacters ops).filter (·.overrun) = [] := by
    rw [List.filter_eq_nil_iff]
    intro x hx
    simp [(h.good x hx).2]
  rw [runAcks, hnone, List.map_nil]

/-- A first character begins an intact run when it is good (R174). -/
theorem runIntact_rxc (b : Byte) (valid overrun : Bool) :
    RunIntact [.rtuRxc b valid overrun] ↔ valid = true ∧ overrun = false :=
  ⟨fun h => h.good _ (List.mem_singleton_self _),
    fun h => ⟨by simpa using h, by simp, List.pairwise_singleton _ _⟩⟩

/-- A 1.5 expiry leaves an intact run intact. -/
theorem runIntact_append_t15 (ops : List Instr) : RunIntact (ops ++ [.rtuT15]) ↔ RunIntact ops :=
  ⟨fun h => ⟨by simpa using h.good, by simpa using h.fits, (List.pairwise_append.1 h.inTime).1⟩,
    fun h => ⟨by simpa using h.good, by simpa using h.fits,
      List.pairwise_append.2 ⟨h.inTime, List.pairwise_singleton _ _, by simp⟩⟩⟩

/-- A character leaves an intact run intact when it fits, is good, and no 1.5 expiry came before it
(R175, R177). -/
theorem runIntact_append_rxc (ops : List Instr) (b : Byte) (valid overrun : Bool) :
    RunIntact (ops ++ [.rtuRxc b valid overrun]) ↔
      RunIntact ops ∧ (runBytes ops).length < 256 ∧ valid = true ∧ overrun = false ∧
        .rtuT15 ∉ ops := by
  constructor
  · intro h
    obtain ⟨hops, -, hlast⟩ := List.pairwise_append.1 h.inTime
    have hfits : (runBytes ops).length < 256 := by simpa using h.fits
    obtain ⟨hvalid, hoverrun⟩ := h.good ⟨b, valid, overrun⟩ (by simp)
    exact ⟨⟨fun x hx => h.good x (by simp [hx]), hfits.le, hops⟩, hfits, hvalid, hoverrun,
      fun hmem => by simpa using hlast _ hmem _ (List.mem_singleton_self _)⟩
  · rintro ⟨h, hfits, hvalid, hoverrun, hmem⟩
    refine ⟨fun x hx => ?_, by simpa using hfits,
      List.pairwise_append.2 ⟨h.inTime, List.pairwise_singleton _ _, ?_⟩⟩
    · rcases List.mem_append.1 (rtuCharacters_append _ _ ▸ hx) with hx | hx
      · exact h.good x hx
      · cases List.mem_singleton.1 hx
        exact ⟨hvalid, hoverrun⟩
    · rintro a ha - - rfl
      exact absurd ha hmem

/-- What the receiver holds after the operations `ops` of a run begun in `s`. -/
structure Gathered (s : State) (ops : List Instr) (t : State) : Prop where
  layer : t.layer = .untimed
  life : t.rtu.ch.life = .opened
  out : t.rtu.ch.out = s.rtu.ch.out ++ runAcks ops
  cntMsg : t.rtu.cntMsg = s.rtu.cntMsg
  cntErr : t.rtu.cntErr = s.rtu.cntErr
  arm35 : t.rtu.arm35 = true
  phase : (.rtuT15 ∉ ops ∧ t.rtu.st = .reception ∧ t.rtu.arm15 = true) ∨
    (.rtuT15 ∈ ops ∧ t.rtu.st = .ctrlwait ∧ t.rtu.arm15 = false)
  nok : t.rtu.nok = false ↔ RunIntact ops
  buf : t.rtu.nok = false → t.rtu.buf = runBytes ops

/-- A run that goes on is not NOK when it was not, the character fits and the character is good (R175).
-/
theorem RtuUnit.extendRun_nok_eq_false (u : RtuUnit) (c : Character) :
    (u.extendRun c).nok = false ↔
      u.nok = false ∧ u.buf.length < 256 ∧ c.valid = true ∧ c.overrun = false := by
  simp [RtuUnit.extendRun, RtuUnit.full_eq, Character.nok, and_assoc]

/-- A character that fits is stored (R175). -/
theorem RtuUnit.extendRun_buf {u : RtuUnit} (h : u.buf.length < 256) (c : Character) :
    (u.extendRun c).buf = u.buf ++ [c.byte] := by
  simp [RtuUnit.extendRun, RtuUnit.full_eq, h]

/-- A character in IDLE begins a run (R174). -/
theorem gathered_first {s : State} (hlayer : s.layer = .untimed) (hst : s.rtu.st = .idle)
    (hlife : s.rtu.ch.life = .opened) (b : Byte) (valid overrun : Bool) :
    ∃ t, exec (.rtuRxc b valid overrun) s = .next t ∧ Gathered s [.rtuRxc b valid overrun] t :=
  ⟨_, characterInIdleStartsARun s b valid overrun (by simp [hlife]) hst, {
    layer := hlayer
    life := hlife
    out := by simp
    cntMsg := rfl
    cntErr := rfl
    arm35 := rfl
    phase := .inl ⟨by simp, rfl, rfl⟩
    nok := by simp [runIntact_rxc]
    buf := fun _ => rfl }⟩

/-- A further character is gathered while the main bytes last, and spoils the run after them (R175,
R177). -/
theorem Gathered.rxc {s t : State} {ops : List Instr} (h : Gathered s ops t) (b : Byte)
    (valid overrun : Bool) :
    ∃ t', exec (.rtuRxc b valid overrun) t = .next t' ∧
      Gathered s (ops ++ [.rtuRxc b valid overrun]) t' := by
  have hexec := exec_rtuRxc_of_not_closed (s := t) (by simp [h.life]) b valid overrun
  rcases h.phase with ⟨hmem, hst, h15⟩ | ⟨hmem, hst, h15⟩
  · rw [RtuUnit.receive_of_reception hst] at hexec
    exact ⟨_, hexec, {
      layer := h.layer
      life := h.life
      out := by simp [RtuUnit.extendRun, h.out]
      cntMsg := h.cntMsg
      cntErr := h.cntErr
      arm35 := rfl
      phase := .inl ⟨by simpa using hmem, hst, rfl⟩
      nok := by
        rw [State.setRtu_rtu, RtuUnit.extendRun_nok_eq_false, runIntact_append_rxc, ← h.nok]
        refine and_congr_right fun hnok : t.rtu.nok = false => ?_
        simp [h.buf hnok, hmem]
      buf := by
        rw [State.setRtu_rtu, RtuUnit.extendRun_nok_eq_false]
        rintro ⟨hnok, hlen, -⟩
        rw [RtuUnit.extendRun_buf hlen, RtuUnit.setCh_buf, h.buf hnok, runBytes_append,
          runBytes_rxc] }⟩
  · rw [RtuUnit.receive_of_ctrlwait hst] at hexec
    exact ⟨_, hexec, {
      layer := h.layer
      life := h.life
      out := by simp [RtuUnit.spoilRun, h.out]
      cntMsg := h.cntMsg
      cntErr := h.cntErr
      arm35 := rfl
      phase := .inr ⟨by simpa using hmem, hst, h15⟩
      nok := by simp [RtuUnit.spoilRun, runIntact_append_rxc, hmem]
      buf := by simp [RtuUnit.spoilRun] }⟩

/-- The first 1.5 expiry ends the main bytes, and the others have no effect (R170, R180). -/
theorem Gathered.t15 {s t : State} {ops : List Instr} (h : Gathered s ops t) :
    ∃ t', exec .rtuT15 t = .next t' ∧ Gathered s (ops ++ [.rtuT15]) t' := by
  obtain ⟨hoff, hon⟩ := shortTimerEndsTheMainBytes t
  have gathered {t' : State} (heq : t'.rtu = { t.rtu with arm15 := false, st := .ctrlwait })
      (hlayer : t'.layer = t.layer) : Gathered s (ops ++ [.rtuT15]) t' := {
    layer := hlayer ▸ h.layer
    life := by rw [heq]; exact h.life
    out := by simp [heq, h.out]
    cntMsg := by rw [heq]; exact h.cntMsg
    cntErr := by rw [heq]; exact h.cntErr
    arm35 := by rw [heq]; exact h.arm35
    phase := .inr ⟨by simp, by rw [heq], by rw [heq]⟩
    nok := by rw [heq, runIntact_append_t15]; exact h.nok
    buf := by rw [heq]; simpa using h.buf }
  rcases h.phase with ⟨-, hst, h15⟩ | ⟨-, hst, h15⟩
  · exact ⟨_, hon (by simp [h.life]) h15 (.inl h.layer), gathered rfl rfl⟩
  · exact ⟨_, hoff (.inr h15), gathered (by rw [← hst, ← h15]) rfl⟩

/-- A run is gathered through any number of its operations. -/
theorem Gathered.execAll {s t : State} {ops : List Instr} (h : Gathered s ops t)
    {more : List Instr} (hmore : ∀ i ∈ more, RunOp i) :
    ∃ t', execAll more t = .next t' ∧ Gathered s (ops ++ more) t' := by
  induction more generalizing ops t with
  | nil => exact ⟨t, rfl, by simpa using h⟩
  | cons i more ih =>
    obtain ⟨hi, hmore⟩ := List.forall_mem_cons.1 hmore
    have hstep : ∃ t', exec i t = .next t' ∧ Gathered s (ops ++ [i]) t' := by
      rcases hi with rfl | ⟨b, valid, overrun, rfl⟩
      · exact h.t15
      · exact h.rxc b valid overrun
    obtain ⟨t', hexec, h'⟩ := hstep
    obtain ⟨t'', hall, h''⟩ := ih h' hmore
    exact ⟨t'', by simp only [Machine.execAll, hexec, hall], by simpa using h''⟩

/-- The end of a gathered run: IDLE, and by its verdict a frame and a message or an error (R183,
R185). -/
theorem Gathered.t35 {s t : State} {ops : List Instr} (h : Gathered s ops t)
    (hmem : .rtuT15 ∈ ops) :
    ∃ t', exec .rtuT35 t = .next t' ∧ t'.rtu.st = .idle ∧
      (RunClean ops →
        t'.rtu.ch.out = s.rtu.ch.out ++ [.frame (rtuFields (runBytes ops))] ∧
        t'.rtu.cntMsg = saturatingSucc s.rtu.cntMsg ∧ t'.rtu.cntErr = s.rtu.cntErr) ∧
      (¬RunClean ops →
        t'.rtu.ch.out = s.rtu.ch.out ++ runAcks ops ∧
        t'.rtu.cntMsg = s.rtu.cntMsg ∧ t'.rtu.cntErr = saturatingSucc s.rtu.cntErr) := by
  have hphase : t.rtu.st = .ctrlwait ∧ t.rtu.arm15 = false := by
    simpa [hmem] using h.phase
  obtain ⟨hst, h15⟩ := hphase
  have hclean : (t.rtu.nok = false ∧ 4 ≤ t.rtu.buf.length ∧ crc16 t.rtu.buf = 0) ↔ RunClean ops := by
    rw [RunClean, ← h.nok]
    exact and_congr_right fun hnok => by rw [h.buf hnok]
  obtain ⟨cntMsg, cntErr, cntOvr, hmsg, herr, -, -, hopen, -⟩ :=
    longTimerFinalizesTheRun t hst h.arm35 h15 (.inl h.layer)
  obtain ⟨shown, hshown, hhidden, hexec⟩ := hopen h.life
  rw [hclean, h.cntMsg, h.cntErr] at hmsg herr
  rw [hclean] at hshown hhidden
  refine ⟨_, hexec, rfl, fun hc => ⟨?_, hmsg hc⟩, fun hc => ⟨?_, herr hc⟩⟩
  · have hintact : RunIntact ops := hc.1
    rw [← h.buf (h.nok.2 hintact)]
    simp [hshown hc, h.out, hintact.runAcks_eq_nil, rtuFields]
  · simp [hhidden hc, h.out]

/-- Operations one after the other: the first list, then the second from where it ends. -/
theorem execAll_append {ops more : List Instr} {s t : State} (h : execAll ops s = .next t) :
    execAll (ops ++ more) s = execAll more t := by
  induction ops generalizing s with
  | nil => cases h; rfl
  | cons i ops ih =>
    rw [List.cons_append]
    cases hexec : exec i s with
    | next u =>
      simp only [execAll, hexec] at h ⊢
      exact ih h
    | fault | refused => simp [execAll, hexec] at h

/-- A stretch of a run has no character exactly when it is 1.5 expiries only. -/
theorem rtuCharacters_eq_nil_iff {ops : List Instr} (hops : ∀ i ∈ ops, RunOp i) :
    rtuCharacters ops = [] ↔ ∀ i ∈ ops, i = .rtuT15 := by
  rw [rtuCharacters, List.filterMap_eq_nil_iff]
  refine forall₂_congr fun i hi => ?_
  rcases hops i hi with rfl | ⟨b, valid, overrun, rfl⟩ <;> simp

/-- No character after a 1.5 expiry, said of the pairs of operations and of every 1.5 expiry. -/
theorem pairwise_t15_iff {body : List Instr} (hbody : ∀ i ∈ body, RunOp i) :
    (body.Pairwise fun a b => a = .rtuT15 → b = .rtuT15) ↔
      ∀ before after, body = before ++ .rtuT15 :: after → rtuCharacters after = [] := by
  constructor
  · rintro h before after rfl
    obtain ⟨-, hafter, -⟩ := List.pairwise_append.1 h
    rw [rtuCharacters_eq_nil_iff fun i hi => hbody i (by simp [hi])]
    exact fun i hi => (List.pairwise_cons.1 hafter).1 i hi rfl
  · intro h
    induction body with
    | nil => exact List.Pairwise.nil
    | cons i body ih =>
      obtain ⟨-, hbody⟩ := List.forall_mem_cons.1 hbody
      refine List.pairwise_cons.2 ⟨fun j hj hi => ?_,
        ih hbody fun before after heq => h (i :: before) after (by rw [heq, List.cons_append])⟩
      exact (rtuCharacters_eq_nil_iff hbody).1 (h [] body (by rw [hi, List.nil_append])) j hj

/-- A string of two bytes or more ends in its own CRC exactly when its residue is 0 (R121). -/
theorem crc16_eq_zero_iff {bytes : List Byte} (h : 2 ≤ bytes.length) :
    crc16 bytes = 0 ↔ ∃ m, bytes = m ++ [crcLow (crc16 m), crcHigh (crc16 m)] := by
  constructor
  · have hlast : (bytes.drop (bytes.length - 2)).length = 2 := by rw [List.length_drop]; omega
    obtain ⟨x, y, hxy⟩ := List.length_eq_two.1 hlast
    intro hzero
    refine ⟨bytes.take (bytes.length - 2), ?_⟩
    rw [← List.take_append_drop (bytes.length - 2) bytes, hxy,
      crc16_append_pair_eq_zero_iff] at hzero
    rw [← hzero.1, ← hzero.2, ← hxy, List.take_append_drop]
  · rintro ⟨m, rfl⟩
    exact (crc16_append_pair_eq_zero_iff m _ _).2 ⟨rfl, rfl⟩

/-- The frame of a run that is long enough (30_encoding.md R82). -/
theorem rtuFields_append_pair {m : List Byte} (h : 2 ≤ m.length) (x y : Byte) :
    rtuFields (m ++ [x, y]) = ⟨.rtu, m.getD 0 0, m.getD 1 0, m.drop 2⟩ := by
  match m, h with
  | a :: b :: rest, _ => simp [rtuFields]

/-- A 1.5 expiry makes no run clean and none unclean. -/
theorem runClean_append_t15 (ops : List Instr) : RunClean (ops ++ [.rtuT15]) ↔ RunClean ops := by
  simp only [RunClean, runIntact_append_t15, runBytes_append, runBytes_t15, List.append_nil]

/-- What makes a run clean: it is whole and ends in its own CRC (R185, R188). -/
theorem runClean_iff {b : Byte} {valid overrun : Bool} {body ops : List Instr}
    (hops : ops = .rtuRxc b valid overrun :: body) (hbody : ∀ i ∈ body, RunOp i) :
    RunClean ops ↔
      ((∀ x ∈ rtuCharacters ops, x.valid = true ∧ x.overrun = false) ∧
        4 ≤ (runBytes ops).length ∧ (runBytes ops).length ≤ 256 ∧
        ∀ before after, body = before ++ .rtuT15 :: after → rtuCharacters after = []) ∧
      ∃ m, runBytes ops = m ++ [crcLow (crc16 m), crcHigh (crc16 m)] := by
  have hpairs : (ops.Pairwise fun a b => a = .rtuT15 → b = .rtuT15) ↔
      ∀ before after, body = before ++ .rtuT15 :: after → rtuCharacters after = [] := by
    rw [hops, ← pairwise_t15_iff hbody, List.pairwise_cons]
    simp
  constructor
  · rintro ⟨⟨hgood, hfits, htime⟩, hlen, hzero⟩
    exact ⟨⟨hgood, hlen, hfits, hpairs.1 htime⟩, (crc16_eq_zero_iff (by omega)).1 hzero⟩
  · rintro ⟨⟨hgood, hlen, hfits, htime⟩, hcrc⟩
    exact ⟨⟨hgood, hfits, hpairs.2 htime⟩, hlen, (crc16_eq_zero_iff (by omega)).2 hcrc⟩

/-- Settles O31: the run is gathered operation by operation, and its end finds it clean exactly when it
is whole and has residue 0. -/
theorem runEmitsItsFrameExactlyWhenClean : Obligations.RunEmitsItsFrameExactlyWhenClean := by
  intro s c body hlayer hst hlife hbody ops bytes acks whole sat
  obtain ⟨t₁, hfirst, h₁⟩ := gathered_first hlayer hst hlife c.byte c.valid c.overrun
  have hmore : ∀ i ∈ body ++ [.rtuT15], RunOp i := by
    rw [List.forall_mem_append]
    exact ⟨hbody, List.forall_mem_singleton.2 (.inl rfl)⟩
  obtain ⟨t₂, hgather, h₂⟩ := h₁.execAll hmore
  obtain ⟨t₃, hend, hidle, hclean, hunclean⟩ := h₂.t35 (by simp)
  have hrun : execAll (ops ++ [.rtuT15]) s = .next t₂ := by
    simp only [ops, List.cons_append, execAll, hfirst, hgather]
  have hexec : execAll (ops ++ [.rtuT15, .rtuT35]) s = .next t₃ := by
    rw [List.append_cons, execAll_append hrun]
    simp only [execAll, hend]
  have hops : [.rtuRxc c.byte c.valid c.overrun] ++ (body ++ [.rtuT15]) = ops ++ [.rtuT15] := rfl
  rw [hops, runClean_append_t15, runClean_iff (ops := ops) rfl hbody] at hclean hunclean
  simp only [runBytes_append, runBytes_t15, runAcks_append, runAcks_t15, List.append_nil]
    at hclean hunclean
  refine ⟨t₃, hexec, hidle, fun m hwhole hm => ?_, fun hbad => hunclean ?_⟩
  · obtain ⟨-, hlen, -⟩ := id hwhole
    have hbytes : runBytes ops = m ++ [crcLow (crc16 m), crcHigh (crc16 m)] := hm
    have hframe : 2 ≤ m.length := by
      rw [show bytes = _ from hm, List.length_append] at hlen
      simpa using hlen
    rw [← rtuFields_append_pair hframe, ← hbytes]
    exact hclean ⟨hwhole, m, hm⟩
  · rintro ⟨hwhole, m, hm⟩
    exact hbad.elim (· hwhole) (· m hm)

end Sys2Proof.Machine

/-! ### The sum check of the LRC and a changed hex character (40_checksum.md R126, 30_encoding.md R85) -/

namespace Sys2Proof.Machine

theorem byteSum_eq_sum (m : List Byte) : byteSum m = m.sum := List.sum_eq_foldl.symm

/-- A byte is the LRC of a string exactly when it brings the sum to 0 (R126). -/
theorem lrc8_eq_iff (m : List Byte) (r : Byte) : lrc8 m = r ↔ byteSum (m ++ [r]) = 0 := by
  rw [lrc8, lrcOfSum_eq_neg, neg_eq_iff_add_eq_zero, byteSum_eq_sum, byteSum_eq_sum,
    List.sum_append, List.sum_singleton]

/-- Changing one byte changes the sum. -/
theorem byteSum_set_eq_iff {m : List Byte} {k : Nat} (hk : k < m.length) (b : Byte) :
    byteSum (m.set k b) = byteSum m ↔ b = m[k] := by
  rw [byteSum_eq_sum, byteSum_eq_sum, List.sum_set', dif_pos hk, add_eq_left, neg_add_eq_zero,
    eq_comm]

theorem mem_hexChars_iff {c : Byte} : c ∈ hexChars ↔ ∃ n < 16, c = hexChar n := by
  revert c; decide

/-- A pair of hex digits is the hex pair of a byte. -/
theorem hexPair_of_nibbles {h l : Nat} (hh : h < 16) (hl : l < 16) :
    hexPair (BitVec.ofNat 8 (16 * h + l)) = [hexChar h, hexChar l] := by
  have hhigh : (16 * h + l) % 256 / 16 = h := by omega
  have hlow : (16 * h + l) % 256 % 16 = l := by omega
  simp [hexPair, hhigh, hlow]

/-- A hex digit written over one character of hex pairs writes the byte of that pair alone. -/
theorem exists_hexPairs_set {c : Byte} (hc : c ∈ hexChars) {bs : List Byte} {k : Nat}
    (hk : k < (bs.flatMap hexPair).length) :
    ∃ b, (bs.flatMap hexPair).set k c = (bs.set (k / 2) b).flatMap hexPair := by
  obtain ⟨n, hn, rfl⟩ := mem_hexChars_iff.1 hc
  induction bs generalizing k with
  | nil => simp at hk
  | cons b bs ih =>
    match k with
    | 0 =>
      have hpair := hexPair_of_nibbles hn (nibbles_lt b).2
      refine ⟨BitVec.ofNat 8 (16 * n + b.toNat % 16), ?_⟩
      exact congrArg (· ++ bs.flatMap hexPair) hpair.symm
    | 1 =>
      have hpair := hexPair_of_nibbles (nibbles_lt b).1 hn
      refine ⟨BitVec.ofNat 8 (16 * (b.toNat / 16) + n), ?_⟩
      exact congrArg (· ++ bs.flatMap hexPair) hpair.symm
    | k + 2 =>
      obtain ⟨b', hb'⟩ := ih (k := k) (by simp [hexPair] at hk ⊢; omega)
      refine ⟨b', ?_⟩
      simpa [hexPair] using hb'

/-- One character of hex pairs changed to another hex digit changes the byte of that pair alone, to
another byte (R235). -/
theorem exists_ne_hexPairs_set {c : Byte} (hc : c ∈ hexChars) {bs : List Byte} {k : Nat}
    (hk : k < (bs.flatMap hexPair).length) (hne : (bs.flatMap hexPair)[k] ≠ c) :
    ∃ (i : Nat) (hi : i < bs.length) (b : Byte), b ≠ bs[i] ∧
      (bs.flatMap hexPair).set k c = (bs.set i b).flatMap hexPair := by
  obtain ⟨b, hset⟩ := exists_hexPairs_set hc hk
  refine ⟨k / 2, by rw [hexPairs_length] at hk; omega, b, ?_, hset⟩
  rintro rfl
  rw [List.set_getElem_self] at hset
  exact hne ((List.getElem_of_eq hset.symm hk).trans (List.getElem_set_self ..))

end Sys2Proof.Machine

/-! ### Decoding a raw ASCII frame (42_ascii_receiver.md R233) -/

namespace Sys2Proof.Machine

/-- A body between the ':' and the CR LF of a raw frame (30_encoding.md R84). -/
def asciiRaw (body : List Byte) : List Byte := colon :: body ++ [carriageReturn, lineFeed]

/-- The bytes whose hex pairs are the body of an encoded frame, the LRC last (30_encoding.md R88). -/
def Frame.asciiBytes (f : Frame) : List Byte :=
  f.address :: f.functionCode :: f.data ++ [lrc8 (f.address :: f.functionCode :: f.data)]

theorem asciiEncode_eq (f : Frame) : asciiEncode f = asciiRaw (f.asciiBytes.flatMap hexPair) := rfl

@[simp] theorem asciiRaw_length (body : List Byte) : (asciiRaw body).length = body.length + 3 := by
  simp [asciiRaw]

theorem asciiRaw_set {body : List Byte} {k : Nat} (hk : k < body.length) (c : Byte) :
    (asciiRaw body).set (k + 1) c = asciiRaw (body.set k c) := by
  simp [asciiRaw, List.set_append_left _ _ hk]

theorem asciiRaw_getD {body : List Byte} {k : Nat} (hk : k < body.length) :
    (asciiRaw body).getD (k + 1) 0 = body[k] := by
  simp [asciiRaw, List.getElem?_append_left hk, hk]

/-- No trailing CR, nothing to strip. -/
theorem stripTrailingCr_eq_self {body : List Byte} (h : carriageReturn ∉ body) :
    stripTrailingCr body = body := by
  have hdrop : body.reverse.dropWhile (· == carriageReturn) = body.reverse :=
    List.dropWhile_eq_self_iff.2 fun hne heq =>
      h (List.mem_reverse.1 (beq_iff_eq.1 heq ▸ List.getElem_mem hne))
  rw [stripTrailingCr, hdrop, List.reverse_reverse]

/-- The body of a raw frame whose body has no CR, whether or not extra CRs are stripped. -/
theorem asciiBody_asciiRaw (p : Params) {body : List Byte} (h : carriageReturn ∉ body) :
    asciiBody p (asciiRaw body) = body := by
  simp [asciiBody, asciiRaw, stripTrailingCr_eq_self h]

/-- Hex pairs contain no character of the framing. -/
theorem ne_of_mem_hexPairs {bs : List Byte} {c : Byte} (h : c ∈ bs.flatMap hexPair) :
    c ≠ colon ∧ c ≠ carriageReturn := by
  obtain ⟨n, hn, rfl⟩ := mem_hexPairs h
  obtain ⟨hcolon, hcr, -⟩ := hexChar_ne hn
  exact ⟨hcolon, hcr⟩

/-- A raw frame of hex pairs is judged by the checks on their bytes. -/
theorem asciiDecode_hexPairs (p : Params) (bs : List Byte) :
    asciiDecode p (asciiRaw (bs.flatMap hexPair)) false = asciiFrame bs := by
  have hbody : asciiBody p (asciiRaw (bs.flatMap hexPair)) = bs.flatMap hexPair :=
    asciiBody_asciiRaw p fun h => (ne_of_mem_hexPairs h).2 rfl
  simp [asciiDecode, hbody]

/-- The bytes of a frame value pass the checks and are that frame. -/
theorem asciiFrame_asciiBytes {f : Frame} (h : f.ValidFor .ascii) :
    asciiFrame f.asciiBytes = .ok f := by
  obtain ⟨kind, address, functionCode, data⟩ := f
  obtain ⟨rfl, hsize⟩ := h
  have hlong : data.length < 253 := Nat.lt_succ_of_le hsize
  have hdrop : (address :: functionCode :: data ++ [lrc8 (address :: functionCode :: data)]).dropLast =
      address :: functionCode :: data := List.dropLast_concat
  have hlrc : lrc8 (address :: functionCode :: data) =
      (address :: functionCode :: data ++ [lrc8 (address :: functionCode :: data)]).getLastD 0 :=
    (List.getLastD_concat ..).symm
  rw [asciiFrame, Frame.asciiBytes, if_neg (by simp), if_neg (by simpa using hlong), hdrop,
    if_neg (not_ne_iff.2 hlrc)]
  simp

/-- What passes the checks sums to 0 (R126). -/
theorem byteSum_eq_zero_of_asciiFrame {d : List Byte} {f : Frame} (h : asciiFrame d = .ok f) :
    byteSum d = 0 := by
  unfold asciiFrame at h
  split_ifs at h with hshort hlong hlrc
  have hne : d ≠ [] := by rintro rfl; simp at hshort
  rw [not_ne_iff, lrc8_eq_iff, List.getLastD_eq_getLast?, List.getLast?_eq_getLast_of_ne_nil hne,
    Option.getD_some, List.dropLast_concat_getLast hne] at hlrc
  exact hlrc

end Sys2Proof.Machine

/-! ### The ASCII receptor, character by character (42_ascii_receiver.md R220 to R232) -/

namespace Sys2Proof.Machine

theorem exec_ascRxc_of_opened {s : State} (h : s.asc.ch.life = .opened) (b : Byte) (valid : Bool) :
    exec (.ascRxc b valid) s = .next (s.setAsc (s.asc.receive s.params b valid)) := if_pos h

theorem AscUnit.receive_colon (u : AscUnit) (p : Params) (valid : Bool) :
    u.receive p colon valid = u.restart valid := by
  cases hast : u.ast <;> simp [AscUnit.receive, hast]

theorem AscUnit.receive_of_append {u : AscUnit} (h : u.ast = .append) (p : Params) {b : Byte}
    (hcolon : b ≠ colon) (hcr : b ≠ carriageReturn) (valid : Bool) :
    u.receive p b valid = u.app p b valid := by
  simp [AscUnit.receive, h, hcolon, hcr]

theorem AscUnit.receive_carriageReturn_of_append {u : AscUnit} (h : u.ast = .append) (p : Params)
    (valid : Bool) :
    u.receive p carriageReturn valid = { u.app p carriageReturn valid with ast := .eof } := by
  simp [AscUnit.receive, h, carriageReturn, colon]

theorem AscUnit.receive_lineFeed_of_eof {u : AscUnit} (h : u.ast = .eof) (p : Params)
    (valid : Bool) : u.receive p lineFeed valid = u.deliver p valid := by
  simp [AscUnit.receive, h, lineFeed, colon]

/-- A valid character that fits is stored and no more (R221). -/
theorem AscUnit.app_of_fits {u : AscUnit} {p : Params} (h : u.abuf.length < p.asciiRxCap)
    (b : Byte) : u.app p b true = { u with abuf := u.abuf ++ [b] } := by
  simp [AscUnit.app, h]

/-- The output of a delivery: the frame, if the buffer decodes to one (R232). -/
def surfaced : Except DropReason Frame → List Event
  | .ok f => [.frame f]
  | .error _ => []

theorem surfaced_eq_nil {r : Except DropReason Frame} (h : ∀ f, r ≠ .ok f) : surfaced r = [] := by
  cases r with
  | ok f => exact absurd rfl (h f)
  | error => rfl

theorem AscUnit.surface_of_opened {u : AscUnit} (h : u.ch.life = .opened) (p : Params) :
    u.surface p = u.setCh (u.ch.emitAll (surfaced (asciiDecode p u.abuf u.anok))) := by
  unfold AscUnit.surface
  cases asciiDecode p u.abuf u.anok with
  | ok f => simp [h, surfaced, Channel.emit]
  | error => simp [surfaced, AscUnit.setCh]

theorem AscUnit.deliver_of_opened {u : AscUnit} (h : u.ch.life = .opened) (p : Params)
    (valid : Bool) :
    u.deliver p valid =
      { u with
        ch := u.ch.emitAll (surfaced
          (asciiDecode p (u.app p lineFeed valid).abuf (u.app p lineFeed valid).anok))
        ast := .idle, abuf := [], anok := false } := by
  have hopen : (u.app p lineFeed valid).ch.life = .opened := h
  rw [AscUnit.deliver, AscUnit.surface_of_opened hopen]
  rfl

/-- Settles O59: the LF is appended, and the delivery surfaces what the buffer then decodes to. -/
theorem lineFeedDeliversTheFrame : Obligations.LineFeedDeliversTheFrame := by
  intro s valid hlife hast u fits decoded
  refine ⟨surfaced decoded, fun f hf => by rw [hf, surfaced], surfaced_eq_nil, ?_⟩
  have hexec := exec_ascRxc_of_opened hlife lineFeed valid
  rw [AscUnit.receive_lineFeed_of_eof hast, AscUnit.deliver_of_opened hlife] at hexec
  exact hexec

/-- What a list of valid characters makes of the unit. -/
def AscUnit.receiveAll (p : Params) (bytes : List Byte) (u : AscUnit) : AscUnit :=
  bytes.foldl (fun u b => u.receive p b true) u

theorem AscUnit.surface_life (u : AscUnit) (p : Params) :
    (u.surface p).ch.life = u.ch.life := by
  unfold AscUnit.surface
  cases asciiDecode p u.abuf u.anok with
  | ok f => dsimp only; split_ifs <;> rfl
  | error => rfl

theorem AscUnit.deliver_life (u : AscUnit) (p : Params) (valid : Bool) :
    (u.deliver p valid).ch.life = u.ch.life :=
  (u.app p lineFeed valid).surface_life p

/-- No character moves the lifecycle. -/
theorem AscUnit.receive_life (u : AscUnit) (p : Params) (b : Byte) (valid : Bool) :
    (u.receive p b valid).ch.life = u.ch.life := by
  unfold AscUnit.receive
  cases u.ast with
  | idle => dsimp only; split_ifs <;> rfl
  | append => dsimp only; split_ifs <;> rfl
  | eof =>
    dsimp only
    split_ifs
    · rfl
    · exact u.deliver_life p valid
    · rfl
    · rfl

/-- Valid characters given to an OPEN unit (R220, R222). -/
theorem execAll_ascCharacters {s : State} (h : s.asc.ch.life = .opened) (bytes : List Byte) :
    execAll (ascCharacters bytes) s = .next (s.setAsc (s.asc.receiveAll s.params bytes)) := by
  induction bytes generalizing s with
  | nil => rfl
  | cons b bytes ih =>
    have hrest : execAll (ascCharacters bytes) (s.setAsc (s.asc.receive s.params b true)) =
        .next (s.setAsc (s.asc.receiveAll s.params (b :: bytes))) :=
      ih ((s.asc.receive_life s.params b true).trans h)
    simpa only [ascCharacters, List.map_cons, execAll, exec_ascRxc_of_opened h] using hrest

/-- Body characters that fit are stored in order (R226). -/
theorem AscUnit.receiveAll_body {p : Params} {body : List Byte} {u : AscUnit} (hast : u.ast = .append)
    (hbody : ∀ b ∈ body, b ≠ colon ∧ b ≠ carriageReturn)
    (hfits : u.abuf.length + body.length ≤ p.asciiRxCap) :
    u.receiveAll p body = { u with abuf := u.abuf ++ body } := by
  induction body generalizing u with
  | nil => simp [AscUnit.receiveAll]
  | cons b body ih =>
    obtain ⟨⟨hcolon, hcr⟩, hbody⟩ := List.forall_mem_cons.1 hbody
    rw [List.length_cons] at hfits
    have hfirst : u.receive p b true = { u with abuf := u.abuf ++ [b] } := by
      rw [AscUnit.receive_of_append hast p hcolon hcr, AscUnit.app_of_fits (by omega)]
    have hrest := ih (u := { u with abuf := u.abuf ++ [b] }) hast hbody (by simp; omega)
    simpa [AscUnit.receiveAll, hfirst] using hrest

/-- The CR LF that ends a frame gathered without a fault: what it decodes to is surfaced, and the receptor
is cleared (R225, R228). -/
theorem AscUnit.receive_crlf_of_append {u : AscUnit} {p : Params} (hlife : u.ch.life = .opened)
    (hast : u.ast = .append) (hanok : u.anok = false) (hfits : u.abuf.length + 2 ≤ p.asciiRxCap) :
    (u.receive p carriageReturn true).receive p lineFeed true =
      { u with
        ch := u.ch.emitAll
          (surfaced (asciiDecode p (u.abuf ++ [carriageReturn, lineFeed]) false))
        ast := .idle, abuf := [], anok := false } := by
  rw [AscUnit.receive_carriageReturn_of_append hast, AscUnit.app_of_fits (by omega),
    AscUnit.receive_lineFeed_of_eof rfl, AscUnit.deliver_of_opened (by exact hlife),
    AscUnit.app_of_fits (by simp; omega)]
  simp [hanok]

/-- A raw frame whose body has no ':' and no CR, given to a cleared OPEN unit in IDLE: what it decodes to
is surfaced, and the unit is as before. -/
theorem AscUnit.receiveAll_asciiRaw {p : Params} {body : List Byte} {u : AscUnit}
    (hlife : u.ch.life = .opened) (hast : u.ast = .idle) (habuf : u.abuf = [])
    (hanok : u.anok = false) (hbody : ∀ b ∈ body, b ≠ colon ∧ b ≠ carriageReturn)
    (hfits : (asciiRaw body).length ≤ p.asciiRxCap) :
    u.receiveAll p (asciiRaw body) =
      u.setCh (u.ch.emitAll (surfaced (asciiDecode p (asciiRaw body) false))) := by
  rw [asciiRaw_length] at hfits
  have hgather : (u.restart true).receiveAll p body =
      { u.restart true with abuf := colon :: body } :=
    AscUnit.receiveAll_body rfl hbody (by simp [AscUnit.restart]; omega)
  calc u.receiveAll p (asciiRaw body)
      = (((u.receive p colon true).receiveAll p body).receive p carriageReturn true).receive p
          lineFeed true := by simp [AscUnit.receiveAll, asciiRaw]
    _ = { u.restart true with
          ch := u.ch.emitAll (surfaced (asciiDecode p (asciiRaw body) false))
          ast := .idle, abuf := [], anok := false } := by
        rw [AscUnit.receive_colon, hgather]
        exact AscUnit.receive_crlf_of_append hlife rfl rfl (by simp; omega)
    _ = u.setCh (u.ch.emitAll (surfaced (asciiDecode p (asciiRaw body) false))) := by
        simp [AscUnit.restart, AscUnit.setCh, hast, habuf, hanok]

/-- The characters of a raw frame of hex pairs surface what the bytes of the pairs are, and leave all
else. -/
theorem execAll_asciiRaw {s : State} (hinv : Inv s) (hlife : s.asc.ch.life = .opened)
    (hast : s.asc.ast = .idle) {bs : List Byte} (hlen : bs.length ≤ 255) :
    execAll (ascCharacters (asciiRaw (bs.flatMap hexPair))) s =
      .next (s.setAsc (s.asc.setCh (s.asc.ch.emitAll (surfaced (asciiFrame bs))))) := by
  obtain ⟨habuf, hanok⟩ := hinv.asc.idleClear hast
  have hcap : 513 ≤ s.params.asciiRxCap := by
    have hparams := hinv.params
    simp only [paramsValid, Bool.and_eq_true, decide_eq_true_eq] at hparams
    exact hparams.1
  rw [execAll_ascCharacters hlife, AscUnit.receiveAll_asciiRaw hlife hast habuf hanok
    (fun _ => ne_of_mem_hexPairs) (by rw [asciiRaw_length, hexPairs_length]; omega),
    asciiDecode_hexPairs]

theorem Frame.asciiBytes_length_le {f : Frame} (h : f.ValidFor .ascii) :
    f.asciiBytes.length ≤ 255 := by
  have hsize : f.data.length ≤ 252 := h.size
  simp [Frame.asciiBytes]
  omega

/-- One byte of a frame's bytes changed: the sum is no longer 0, so no frame (R126, R235). -/
theorem surfaced_asciiBytes_set {f : Frame} (h : f.ValidFor .ascii) {k : Nat} {b : Byte}
    (hk : k < f.asciiBytes.length) (hb : b ≠ f.asciiBytes[k]) :
    surfaced (asciiFrame (f.asciiBytes.set k b)) = [] := by
  refine surfaced_eq_nil fun g hg => hb ((byteSum_set_eq_iff hk b).1 ?_)
  rw [byteSum_eq_zero_of_asciiFrame hg, byteSum_eq_zero_of_asciiFrame (asciiFrame_asciiBytes h)]

/-- Settles O60: the receptor gathers the characters and surfaces what they decode to; the frame's bytes
pass the checks, and with one hex character changed one byte is another, so their sum is not 0. -/
theorem encodedFrameIsReceived : Obligations.EncodedFrameIsReceived := by
  intro s f hinv hf hlife hast
  rw [asciiEncode_eq]
  constructor
  · rw [execAll_asciiRaw hinv hlife hast (Frame.asciiBytes_length_le hf), asciiFrame_asciiBytes hf]
    rfl
  · intro j c hj hlen hc hne
    obtain ⟨k, rfl⟩ := Nat.exists_eq_add_of_le' hj
    have hk : k < (f.asciiBytes.flatMap hexPair).length := by rw [asciiRaw_length] at hlen; omega
    rw [asciiRaw_getD hk] at hne
    obtain ⟨i, hi, b, hb, hset⟩ := exists_ne_hexPairs_set hc hk hne
    rw [asciiRaw_set hk, hset, execAll_asciiRaw hinv hlife hast
      (by rw [List.length_set]; exact Frame.asciiBytes_length_le hf), surfaced_asciiBytes_set hf hi hb,
      Channel.emitAll_nil]
    rfl

end Sys2Proof.Machine

/-! ### Submission (43_transceiver.md R260, R261) -/

namespace Sys2Proof.Machine

section
variable {c : Channel} {own k : FrameKind} {t : Tag} {a fc : Byte} {data : List Byte}

theorem makeFrame_of_large (hlen : 252 < data.length) : makeFrame own a fc data = none :=
  if_neg (Nat.not_le.2 hlen)

theorem makeFrame_of_fits (hlen : data.length ≤ 252) :
    makeFrame own a fc data = some ⟨own, a, fc, data⟩ := if_pos hlen

/-- More than 252 data bytes: no frame can be built, whatever the lifecycle and the kind. -/
theorem Channel.submit_of_large (hlen : 252 < data.length) :
    c.submit own t k a fc data = c.complete t .frameConstruction := by
  rw [Channel.submit, makeFrame_of_large hlen]

/-- A submission whose frame can be built: the lifecycle, then the kind, then the slot. -/
theorem Channel.submit_of_fits (hlen : data.length ≤ 252) :
    c.submit own t k a fc data =
      if c.life ≠ .opened then c.complete t .invalidOperation
      else if k ≠ own then c.complete t .invalidFrame
      else if c.txreg = none then { c with txreg := some ⟨t, ⟨own, a, fc, data⟩, false⟩ }
      else { c with hold := insertSubmission ⟨t, ⟨own, a, fc, data⟩⟩ c.hold } := by
  cases hslot : c.txreg <;> simp [Channel.submit, makeFrame_of_fits hlen, hslot]

theorem Channel.submit_of_not_opened (hlen : data.length ≤ 252) (hlife : c.life ≠ .opened) :
    c.submit own t k a fc data = c.complete t .invalidOperation := by
  rw [Channel.submit_of_fits hlen, if_pos hlife]

theorem Channel.submit_of_other_kind (hlen : data.length ≤ 252) (hlife : c.life = .opened)
    (hkind : k ≠ own) : c.submit own t k a fc data = c.complete t .invalidFrame := by
  rw [Channel.submit_of_fits hlen, if_neg (not_not.2 hlife), if_pos hkind]

theorem Channel.submit_of_free_slot (hlen : data.length ≤ 252) (hlife : c.life = .opened)
    (hkind : k = own) (hslot : c.txreg = none) :
    c.submit own t k a fc data = { c with txreg := some ⟨t, ⟨own, a, fc, data⟩, false⟩ } := by
  rw [Channel.submit_of_fits hlen, if_neg (not_not.2 hlife), if_neg (not_not.2 hkind), if_pos hslot]

theorem Channel.submit_of_taken_slot (hlen : data.length ≤ 252) (hlife : c.life = .opened)
    (hkind : k = own) (hslot : c.txreg ≠ none) :
    c.submit own t k a fc data =
      { c with hold := insertSubmission ⟨t, ⟨own, a, fc, data⟩⟩ c.hold } := by
  rw [Channel.submit_of_fits hlen, if_neg (not_not.2 hlife), if_neg (not_not.2 hkind), if_neg hslot]

end

section
variable {s : State} {c : Channel} {k : FrameKind} {t : Tag} {a fc : Byte} {data : List Byte}

theorem exec_rtuTxs_of_used (ht : t ∈ s.rtu.ch.tags) :
    exec (.rtuTxs t k a fc data) s = .refused .tagReuse :=
  if_pos (Channel.outstanding_iff.2 ht)

theorem exec_rtuTxs_of_unused (ht : t ∉ s.rtu.ch.tags)
    (hc : s.rtu.ch.submit .rtu t k a fc data = c) :
    exec (.rtuTxs t k a fc data) s = .next (s.setRtu (s.rtu.setCh c)) :=
  hc ▸ if_neg (mt Channel.outstanding_iff.1 ht)

theorem exec_ascTxs_of_used (ht : t ∈ s.asc.ch.tags) :
    exec (.ascTxs t k a fc data) s = .refused .tagReuse :=
  if_pos (Channel.outstanding_iff.2 ht)

theorem exec_ascTxs_of_unused (ht : t ∉ s.asc.ch.tags)
    (hc : s.asc.ch.submit .ascii t k a fc data = c) :
    exec (.ascTxs t k a fc data) s = .next (s.setAsc (s.asc.setCh c)) :=
  hc ▸ if_neg (mt Channel.outstanding_iff.1 ht)

end

/-- Settles O37: each unit hands a submission under an unused tag to its channel, whose checks are the
same for both kinds. -/
theorem submissionIsCheckedThenQueued : Obligations.SubmissionIsCheckedThenQueued := by
  constructor
  · intro s t k a fc data
    exact ⟨exec_rtuTxs_of_used,
      fun ht hlen => exec_rtuTxs_of_unused ht (Channel.submit_of_large hlen),
      fun ht hlen hlife => exec_rtuTxs_of_unused ht (Channel.submit_of_not_opened hlen hlife),
      fun ht hlen hlife hkind =>
        exec_rtuTxs_of_unused ht (Channel.submit_of_other_kind hlen hlife hkind),
      fun ht hlen hlife hkind hslot =>
        exec_rtuTxs_of_unused ht (Channel.submit_of_free_slot hlen hlife hkind hslot),
      fun ht hlen hlife hkind hslot =>
        ⟨_, exec_rtuTxs_of_unused ht (Channel.submit_of_taken_slot hlen hlife hkind hslot),
          fun _ => mem_insertSubmission⟩⟩
  · intro s t k a fc data
    exact ⟨exec_ascTxs_of_used,
      fun ht hlen => exec_ascTxs_of_unused ht (Channel.submit_of_large hlen),
      fun ht hlen hlife => exec_ascTxs_of_unused ht (Channel.submit_of_not_opened hlen hlife),
      fun ht hlen hlife hkind =>
        exec_ascTxs_of_unused ht (Channel.submit_of_other_kind hlen hlife hkind),
      fun ht hlen hlife hkind hslot =>
        exec_ascTxs_of_unused ht (Channel.submit_of_free_slot hlen hlife hkind hslot),
      fun ht hlen hlife hkind hslot =>
        ⟨_, exec_ascTxs_of_unused ht (Channel.submit_of_taken_slot hlen hlife hkind hslot),
          fun _ => mem_insertSubmission⟩⟩

end Sys2Proof.Machine

/-! ### Construction (60_exceptions.md R322) -/

namespace Sys2Proof

/-- All five values of the request are in their domains (00_scope.md R7). -/
def ConfigRequest.InDomains (q : ConfigRequest) : Prop :=
  1 ≤ q.baud ∧ (q.dataBits = 7 ∨ q.dataBits = 8) ∧ q.parity ≠ none ∧
  (q.stopBits = 1 ∨ q.stopBits = 2) ∧ ∃ k, q.scale = some k ∧ 1 ≤ k ∧ k ≤ 512

end Sys2Proof

namespace Sys2Proof.Machine

/-- What the check of a configuration asks of its fields; any parity type will do. -/
theorem configValid_iff (c : LineConfig) :
    configValid c = true ↔ 1 ≤ c.baud ∧ (c.dataBits = 7 ∨ c.dataBits = 8) ∧
      (c.stopBits = 1 ∨ c.stopBits = 2) ∧ 1 ≤ c.scale ∧ c.scale ≤ 512 := by
  simp [configValid, and_assoc]

/-- A request passes the check when it names the fields of a valid configuration. -/
theorem checkedConfig_eq_some_iff (q : ConfigRequest) (c : LineConfig) :
    checkedConfig q = some c ↔ configValid c = true ∧
      q = ⟨c.baud, c.dataBits, some c.parity, c.stopBits, some c.scale⟩ := by
  obtain ⟨baud, dataBits, parity, stopBits, scale⟩ := q
  cases parity with
  | none => simp [checkedConfig]
  | some parity =>
    cases scale with
    | none => simp [checkedConfig]
    | some scale =>
      simp only [checkedConfig, Option.ite_none_right_eq_some, Option.some.injEq]
      constructor
      · rintro ⟨hvalid, rfl⟩
        exact ⟨hvalid, rfl⟩
      · rintro ⟨hvalid, hq⟩
        cases hq
        exact ⟨hvalid, rfl⟩

/-- The check finds a configuration exactly for the requests in the domains. -/
theorem exists_checkedConfig_iff (q : ConfigRequest) :
    (∃ c, checkedConfig q = some c) ↔ q.InDomains := by
  simp only [checkedConfig_eq_some_iff, configValid_iff]
  constructor
  · rintro ⟨c, ⟨hbaud, hdata, hstop, hscale⟩, rfl⟩
    exact ⟨hbaud, hdata, Option.some_ne_none _, hstop, c.scale, rfl, hscale⟩
  · obtain ⟨baud, dataBits, parity, stopBits, scale⟩ := q
    rintro ⟨hbaud, hdata, hparity, hstop, k, rfl, hk⟩
    obtain ⟨parity, rfl⟩ := Option.ne_none_iff_exists'.1 hparity
    exact ⟨⟨baud, dataBits, parity, stopBits, k⟩, ⟨hbaud, hdata, hstop, hk⟩, rfl⟩

section
variable {q : ConfigRequest} {c : LineConfig}

theorem RtuUnit.construct_of_checked (h : checkedConfig q = some c) :
    RtuUnit.construct q = .ok (RtuUnit.reset c) := by
  simp [RtuUnit.construct, h]

theorem AscUnit.construct_of_checked (h : checkedConfig q = some c) :
    AscUnit.construct q = .ok (AscUnit.reset c) := by
  simp [AscUnit.construct, h]

theorem RtuUnit.construct_of_not_checked (h : checkedConfig q = none) :
    RtuUnit.construct q = .error .configurationError := by
  simp [RtuUnit.construct, h]

theorem AscUnit.construct_of_not_checked (h : checkedConfig q = none) :
    AscUnit.construct q = .error .configurationError := by
  simp [AscUnit.construct, h]

end

/-- Settles O35: both transceivers ask the one check of the request, which passes exactly in the
domains. -/
theorem invalidConfigurationsBuildNoUnit : Obligations.InvalidConfigurationsBuildNoUnit := by
  intro q valid
  have hchecked : (∃ c, checkedConfig q = some c) ↔ valid := exists_checkedConfig_iff q
  constructor
  · intro hvalid
    obtain ⟨c, hc⟩ := hchecked.2 hvalid
    exact ⟨⟨_, RtuUnit.construct_of_checked hc⟩, _, AscUnit.construct_of_checked hc⟩
  · intro hinvalid
    have hnone : checkedConfig q = none :=
      Option.eq_none_iff_forall_ne_some.2 fun c hc => hinvalid (hchecked.1 ⟨c, hc⟩)
    exact ⟨RtuUnit.construct_of_not_checked hnone, AscUnit.construct_of_not_checked hnone⟩

end Sys2Proof.Machine

/-! ### What construction answers (70_reset_and_hazards.md R350, R351) -/

namespace Sys2Proof.Machine

/-- A request that names the fields of a valid configuration passes the check with it. -/
theorem checkedConfig_of_valid {c : LineConfig} (h : configValid c = true) :
    checkedConfig ⟨c.baud, c.dataBits, some c.parity, c.stopBits, some c.scale⟩ = some c :=
  (checkedConfig_eq_some_iff _ c).2 ⟨h, rfl⟩

/-- The only unit construction answers is the reset unit of the checked configuration. -/
theorem RtuUnit.construct_eq_ok_iff (q : ConfigRequest) (u : RtuUnit) :
    RtuUnit.construct q = .ok u ↔ ∃ c, checkedConfig q = some c ∧ u = RtuUnit.reset c := by
  cases hq : checkedConfig q with
  | none => simp [RtuUnit.construct_of_not_checked hq]
  | some c => simp [RtuUnit.construct_of_checked hq, eq_comm]

@[inherit_doc RtuUnit.construct_eq_ok_iff]
theorem AscUnit.construct_eq_ok_iff (q : ConfigRequest) (u : AscUnit) :
    AscUnit.construct q = .ok u ↔ ∃ c, checkedConfig q = some c ∧ u = AscUnit.reset c := by
  cases hq : checkedConfig q with
  | none => simp [AscUnit.construct_of_not_checked hq]
  | some c => simp [AscUnit.construct_of_checked hq, eq_comm]

/-- The configuration of the reset state (log 4) is a valid one. -/
theorem resetChoice_valid : configValid LineConfig.resetChoice = true := by decide

/-- Settles O34: a construction answers the reset unit of a configuration whose fields are the
request's, and the reset state's transceivers are the answers for its own configuration. -/
theorem constructionGivesTheResetState : Obligations.ConstructionGivesTheResetState := by
  have hreset := checkedConfig_of_valid resetChoice_valid
  refine ⟨rfl, rfl, rfl, rfl, ⟨_, RtuUnit.construct_of_checked hreset⟩,
    ⟨_, AscUnit.construct_of_checked hreset⟩, fun q u hu => ?_, fun q u hu => ?_⟩
  · obtain ⟨c, hc, rfl⟩ := (RtuUnit.construct_eq_ok_iff q u).1 hu
    obtain ⟨-, rfl⟩ := (checkedConfig_eq_some_iff q c).1 hc
    simp [RtuUnit.reset, Channel.reset]
  · obtain ⟨c, hc, rfl⟩ := (AscUnit.construct_eq_ok_iff q u).1 hu
    obtain ⟨-, rfl⟩ := (checkedConfig_eq_some_iff q c).1 hc
    simp [AscUnit.reset, Channel.reset]

end Sys2Proof.Machine

/-! ### The decoder accepts only encodings (30_encoding.md R90 to R98) -/

namespace Sys2Proof

/-- What is read as a submission is the encoding of one, with a head word of the SB format (R93). -/
theorem encodeSubmission_of_takeSubmission
    {make : Tag → FrameKind → Byte → Byte → List Byte → Instr} {f : Fields} {ws : List Word}
    {i : Instr} {rest : List Word} (hclear : Format.sb.reservedClear f = true)
    (h : takeSubmission make f ws = .ok (i, rest)) :
    ∃ k address functionCode data, data.length ≤ 255 ∧ i = make f.t k address functionCode data ∧
      f.toWord :: ws = encodeSubmission f.op f.t k address functionCode data ++ rest := by
  simp only [takeSubmission] at h
  split at h
  · rename_i address functionCode data rest' hpay
    obtain ⟨hlen, rfl⟩ := takePayload_ok hpay
    cases h
    have hdata : f.b.toNat = data.length := by simpa using hlen.symm
    have hb : f.b = BitVec.ofNat 8 data.length := by rw [← hdata, BitVec.ofNat_toNat, BitVec.setWidth_eq]
    have hk : kindBit (kindOf f.k) = f.k := by cases f.k <;> rfl
    refine ⟨kindOf f.k, address, functionCode, data, by omega, rfl, ?_⟩
    obtain ⟨op, t, r1, k, r2, o, v, b⟩ := f
    simp only [Format.reservedClear, Bool.and_eq_true, beq_iff_eq, Bool.not_eq_true'] at hclear
    obtain ⟨⟨rfl, rfl⟩, rfl, rfl⟩ := hclear
    simp only at hb hk
    simp [encodeSubmission, hk, ← hb]
  · cases h
  · cases h

/-- What is read as a counter operation has the select value of its counter (R104). -/
theorem counterNumber_of_takeCounter {make : CounterSelect → Instr} {f : Fields} {ws : List Word}
    {i : Instr} {rest : List Word} (h : takeCounter make f ws = .ok (i, rest)) :
    ∃ c, i = make c ∧ f.b = counterNumber c ∧ rest = ws := by
  have hnumber : ∀ (b : Byte) (c : CounterSelect), counterOf b = some c → b = counterNumber c := by
    decide
  simp only [takeCounter] at h
  split at h
  · rename_i c hc
    cases h
    exact ⟨c, rfl, hnumber _ _ hc, rfl⟩
  · cases h

/-- The operation that fields with clear reserved bits read is encodable, and they are its encoding (R92,
R98). -/
theorem encode_of_decodeFields {f : Fields} {fmt : Format} {ws : List Word} {i : Instr}
    {rest : List Word} (hfmt : formatOf f.op = some fmt) (hclear : fmt.reservedClear f = true)
    (h : decodeFields f ws = .ok (i, rest)) :
    i.wf = true ∧ f.toWord :: ws = encode i ++ rest := by
  simp only [decodeFields] at h
  split at h
  case h_27 => cases h
  all_goals
    rename_i hnat
    simp only [formatOf, hnat, Option.some.injEq] at hfmt
    subst hfmt
    have hop := (BitVec.setWidth_eq f.op).symm
    rw [← BitVec.ofNat_toNat, hnat] at hop
  case h_10 | h_20 =>
    obtain ⟨k, address, functionCode, data, hdata, rfl, henc⟩ :=
      encodeSubmission_of_takeSubmission hclear h
    exact ⟨decide_eq_true hdata, by rw [henc, hop]; rfl⟩
  all_goals
    obtain ⟨op, t, r1, k, r2, o, v, b⟩ := f
    simp only [Format.reservedClear, Bool.and_eq_true, beq_iff_eq, Bool.not_eq_true'] at hclear
    simp only at hop
  case h_12 | h_13 =>
    obtain ⟨c, rfl, hb, rfl⟩ := counterNumber_of_takeCounter h
    simp_all [encode, Instr.wf]
  all_goals
    cases h
    simp_all [encode, Instr.wf]

/-- Whatever decodes is encodable, and is its own encoding followed by the words left (R96, R98). -/
theorem encode_of_decode {ws : List Word} {i : Instr} {rest : List Word}
    (h : decode ws = .ok (i, rest)) : i.wf = true ∧ ws = encode i ++ rest := by
  cases ws with
  | nil => cases h
  | cons w ws =>
    have hfields := decodeFields_of_decode h
    simp only [decode] at h
    split at h
    · cases h
    · rename_i fmt hfmt
      split at h
      · rename_i hclear
        rw [← Fields.toWord_ofWord w]
        exact encode_of_decodeFields hfmt hclear hfields
      · cases h

end Sys2Proof

namespace Sys2Proof.Machine

/-- Settles O1: the decoder reads every encodable operation back. -/
theorem decodeReadsBackEncode : Obligations.DecodeReadsBackEncode :=
  fun _ rest hwf => decode_encode_append hwf rest

/-- Settles O2: field by field, what the decoder accepts is the encoding of what it answers. -/
theorem decodeAcceptsOnlyEncodings : Obligations.DecodeAcceptsOnlyEncodings :=
  fun _ _ _ => encode_of_decode

/-- Settles O15: the two steps over the trailing bytes reach 0 only from their CRC. -/
theorem crcResidueIffTrailerIsTheCrc : Obligations.CrcResidueIffTrailerIsTheCrc :=
  crc16_append_pair_eq_zero_iff

end Sys2Proof.Machine

/-! ### The wire formats of frame values (30_encoding.md R80 to R88, 42_ascii_receiver.md R233, R234) -/

namespace Sys2Proof.Machine

/-- The fields of an encoded RTU frame are the frame (R81, R82). -/
theorem rtuFields_rtuEncode {f : Frame} (hkind : f.kind = .rtu) : rtuFields (rtuEncode f) = f := by
  obtain ⟨kind, address, functionCode, data⟩ := f
  obtain rfl : kind = .rtu := hkind
  simp [rtuEncode, rtuFields]

/-- The encoding of a frame value decodes to it (R87). -/
theorem asciiDecode_asciiEncode (p : Params) {f : Frame} (hf : f.ValidFor .ascii) :
    asciiDecode p (asciiEncode f) false = .ok f := by
  rw [asciiEncode_eq, asciiDecode_hexPairs, asciiFrame_asciiBytes hf]

/-- Settles O18: encoding is hex pairs of bytes that pass the checks, and a CRC over the rest. -/
theorem framesRoundTrip : Obligations.FramesRoundTrip :=
  ⟨fun p _ hf => asciiDecode_asciiEncode p hf,
    fun f hf => ⟨rtuFields_rtuEncode hf.kind,
      (crc16_append_pair_eq_zero_iff (f.address :: f.functionCode :: f.data) _ _).2 ⟨rfl, rfl⟩⟩⟩

/-- Bytes that pass the checks are those of the frame value they are (R233). -/
theorem eq_asciiBytes_of_asciiFrame {d : List Byte} {f : Frame} (h : asciiFrame d = .ok f) :
    f.ValidFor .ascii ∧ d = f.asciiBytes := by
  unfold asciiFrame at h
  split_ifs at h with hshort hlong hlrc
  simp only [not_lt] at hshort hlong
  match d, hshort with
  | a :: c :: e :: rest, _ =>
    cases h
    have hlast : lrc8 (a :: c :: (e :: rest).dropLast) = (e :: rest).getLast (by simp) := by
      simpa [List.getLastD_eq_getLast?, List.getLast?_eq_getLast_of_ne_nil] using hlrc
    refine ⟨⟨rfl, ?_⟩, ?_⟩
    · simp [maxPduDataLength] at hlong ⊢; omega
    · simp only [Frame.asciiBytes, List.getD_cons_zero, List.getD_cons_succ, List.drop_succ_cons,
        List.drop_zero, hlast, List.cons_append, List.dropLast_append_getLast]

/-- A frame that decodes was not NOK, and its body decodes to bytes that pass the checks (R233). -/
theorem asciiDecode_eq_ok {p : Params} {raw : List Byte} {nok : Bool} {f : Frame}
    (h : asciiDecode p raw nok = .ok f) :
    nok = false ∧ ∃ d, decodePairs p (asciiBody p raw) = some d ∧ asciiFrame d = .ok f := by
  unfold asciiDecode at h
  split_ifs at h with hnok
  split at h
  · cases h
  · rename_i d hd
    exact ⟨by simpa using hnok, d, hd, h⟩

/-- The body of a raw frame is what stands between the ':' and the CR LF, with the CRs at its end
removed under the parameter (R233, R234). -/
theorem asciiBody_eq (p : Params) (body : List Byte) :
    asciiBody p (asciiRaw body) =
      if p.asciiStripExtraCr then stripTrailingCr body else body := by
  simp [asciiBody, asciiRaw]

/-- Settles O19: the body is the hex pairs of bytes that are those of a frame value. -/
theorem asciiDecodeAcceptsOnlyEncodings : Obligations.AsciiDecodeAcceptsOnlyEncodings := by
  intro p body nok f hstrip hlower h
  obtain ⟨hnok, d, hpairs, hframe⟩ := asciiDecode_eq_ok (raw := asciiRaw body) h
  rw [asciiBody_eq, hstrip, if_neg Bool.false_ne_true] at hpairs
  obtain ⟨hvalid, rfl⟩ := eq_asciiBytes_of_asciiFrame hframe
  refine ⟨hnok, hvalid, ?_⟩
  rw [asciiEncode_eq, ← decodePairs_eq_some hlower hpairs]
  rfl

/-- An ASCII raw frame has two characters for each byte, the LRC included, and the framing (R84). -/
theorem asciiEncode_length (f : Frame) : (asciiEncode f).length = 2 * f.data.length + 9 := by
  rw [asciiEncode_eq, asciiRaw_length, hexPairs_length, Frame.asciiBytes]
  simp
  omega

/-- Settles O20: the lengths, and the bound on the data of a frame value. -/
theorem rawFrameLengths : Obligations.RawFrameLengths := by
  constructor
  · intro f hf
    have hsize : f.data.length ≤ 252 := hf.size
    have hlen : (rtuEncode f).length = f.data.length + 4 := by simp [rtuEncode]
    omega
  · intro f hf
    have hsize : f.data.length ≤ 252 := hf.size
    have hlen := asciiEncode_length f
    exact ⟨hlen, by omega, if_pos (by simp only [asciiTxCap]; omega)⟩

/-- No character of a body that decodes is a CR, whatever the parameters (R86). -/
theorem carriageReturn_not_mem_of_decodePairs {p : Params} {cs bs : List Byte}
    (h : decodePairs p cs = some bs) : carriageReturn ∉ cs := by
  have hcr : hexValue p carriageReturn = none := by
    have hupper : hexChars.idxOf? carriageReturn = none := by decide
    have hlower : lowerHexChars.idxOf? carriageReturn = none := by decide
    simp [hexValue, hupper, hlower]
  fun_induction decodePairs p cs generalizing bs with
  | case1 => simp
  | case2 => cases h
  | case3 c1 c2 rest b bs' hbs hb ih =>
    have h1 : carriageReturn ≠ c1 := by rintro rfl; simp [unhex, hcr] at hb
    have h2 : carriageReturn ≠ c2 := by
      rintro rfl
      simp only [unhex, hcr] at hb
      split at hb <;> simp_all
    simp [h1, h2, ih hbs]
  | case4 => cases h

/-- CRs put after a body are removed with those it ends in (R234). -/
theorem stripTrailingCr_append_replicate (body : List Byte) (k : Nat) :
    stripTrailingCr (body ++ List.replicate k carriageReturn) = stripTrailingCr body := by
  induction k with
  | zero => simp
  | succ k ih =>
    rw [List.replicate_succ', ← List.append_assoc, ← ih]
    simp [stripTrailingCr]

/-- Settles O22: a CR is no hex digit, and stripping removes every CR at the end. -/
theorem extraCarriageReturns : Obligations.ExtraCarriageReturns := by
  intro p body k nok
  constructor
  · intro hstrip f h
    obtain ⟨-, d, hpairs, -⟩ :=
      asciiDecode_eq_ok (raw := asciiRaw (body ++ List.replicate (k + 1) carriageReturn)) h
    rw [asciiBody_eq, hstrip, if_neg Bool.false_ne_true] at hpairs
    exact carriageReturn_not_mem_of_decodePairs hpairs (by simp)
  · intro hstrip
    have hbody : asciiBody p (asciiRaw (body ++ List.replicate k carriageReturn)) =
        asciiBody p (asciiRaw body) := by
      rw [asciiBody_eq, asciiBody_eq, hstrip, if_pos rfl, if_pos rfl,
        stripTrailingCr_append_replicate]
    have hdecode : asciiDecode p (asciiRaw (body ++ List.replicate k carriageReturn)) nok =
        asciiDecode p (asciiRaw body) nok := by
      rw [asciiDecode, hbody, asciiDecode]
    exact hdecode

/-- The character of a hex digit (R85; the codes of 00_scope.md R14). -/
def digitCode (n : Nat) : Byte := BitVec.ofNat 8 (if n < 10 then 0x30 + n else 0x41 + (n - 10))

/-- The value of a hex digit by its code, lowercase only where it is accepted (R86). -/
def digitValue (lowercase : Bool) (c : Byte) : Option Nat :=
  if 0x30 ≤ c.toNat ∧ c.toNat ≤ 0x39 then some (c.toNat - 0x30)
  else if 0x41 ≤ c.toNat ∧ c.toNat ≤ 0x46 then some (c.toNat - 0x41 + 10)
  else if lowercase = true ∧ 0x61 ≤ c.toNat ∧ c.toNat ≤ 0x66 then some (c.toNat - 0x61 + 10)
  else none

theorem hexChar_eq_digitCode {n : Nat} (h : n < 16) : hexChar n = digitCode n := by
  revert h; revert n; decide

theorem mem_hexChars_iff_digitValue (c : Byte) : c ∈ hexChars ↔ (digitValue false c).isSome := by
  revert c; decide

/-- The model's table lookup is the value by the code (R86). -/
theorem hexValue_eq_digitValue (p : Params) (c : Byte) :
    hexValue p c = digitValue p.asciiAcceptLowercase c := by
  unfold hexValue
  generalize p.asciiAcceptLowercase = lowercase
  revert c lowercase
  decide

theorem digitValue_lt {lowercase : Bool} {c : Byte} {n : Nat} (h : digitValue lowercase c = some n) :
    n < 16 := by
  unfold digitValue at h
  split_ifs at h <;> (cases h; omega)

/-- A pair decodes exactly where both characters are hex digits (R86). -/
theorem unhex_eq_some_iff (p : Params) (b c1 c2 : Byte) :
    unhex p c1 c2 = some b ↔
      ∃ h l, digitValue p.asciiAcceptLowercase c1 = some h ∧
        digitValue p.asciiAcceptLowercase c2 = some l ∧ b.toNat = 16 * h + l := by
  rw [unhex, hexValue_eq_digitValue, hexValue_eq_digitValue]
  cases h1 : digitValue p.asciiAcceptLowercase c1 with
  | none => simp
  | some h =>
    cases h2 : digitValue p.asciiAcceptLowercase c2 with
    | none => simp
    | some l =>
      have hh := digitValue_lt h1
      have hl := digitValue_lt h2
      simp only [Option.some.injEq, exists_and_left, exists_eq_left', ← BitVec.toNat_inj,
        BitVec.toNat_ofNat]
      omega

/-- With uppercase only, what decodes is the byte's own hex pair (R86). -/
theorem eq_hexPair_of_unhex {p : Params} (hp : p.asciiAcceptLowercase = false) {b c1 c2 : Byte}
    (h : unhex p c1 c2 = some b) : [c1, c2] = hexPair b := by
  simpa using decodePairs_eq_some hp (cs := [c1, c2]) (bs := [b]) (by simp [decodePairs, h])

/-- Settles O21: the model's tables hold the codes and values of the statement. -/
theorem hexPairsDecodeUniquely : Obligations.HexPairsDecodeUniquely := by
  have hpair (b : Byte) : hexPair b = [digitCode (b.toNat / 16), digitCode (b.toNat % 16)] := by
    rw [hexPair, hexChar_eq_digitCode (nibbles_lt b).1, hexChar_eq_digitCode (nibbles_lt b).2]
  have hback (p : Params) (b c1 c2 : Byte) (h : [c1, c2] = hexPair b) : unhex p c1 c2 = some b := by
    cases h
    exact unhex_hexPair p b
  exact ⟨hpair, mem_hexChars_iff_digitValue, fun p b c1 c2 =>
    ⟨unhex_eq_some_iff p b c1 c2, fun hp => ⟨eq_hexPair_of_unhex hp, hback p b c1 c2⟩,
      hback p b c1 c2⟩⟩

end Sys2Proof.Machine

/-! ### The checksum engines (40_checksum.md) -/

namespace Sys2Proof.Machine

/-- Eight shifts, on naturals (R120). -/
theorem crcShift_iterate_toNat (c : BitVec 16) (n : Nat) :
    (crcShift^[n] c).toNat =
      (List.range n).foldl (fun c _ => if c % 2 = 1 then (c / 2) ^^^ 0xA001 else c / 2) c.toNat := by
  induction n with
  | zero => rfl
  | succ n ih =>
    rw [Function.iterate_succ_apply', crcShift_toNat, ih, List.range_succ, List.foldl_append]
    rfl

/-- Settles O13: the CRC step on naturals is the model's, shift by shift. -/
theorem crcEngineOperations : Obligations.CrcEngineOperations := by
  intro s b
  refine ⟨rfl, ⟨crcStep s.crc.acc b, rfl, ?_⟩, rfl⟩
  have hbyte : (b.setWidth 16).toNat = b.toNat := BitVec.toNat_setWidth_of_le (by decide)
  rw [crcStep, crcShift_iterate_toNat, BitVec.toNat_xor, hbyte]

/-- The digest of a sum, on naturals (R125). -/
theorem lrcOfSum_toNat (sum : Byte) : (lrcOfSum sum).toNat = (256 - sum.toNat) % 256 := by
  simp [lrcOfSum]

/-- Settles O14: the sum and the digest on naturals are the model's. -/
theorem lrcEngineOperations : Obligations.LrcEngineOperations := by
  intro s b
  have hadd : lrcStep s.lrc.sum b = BitVec.ofNat 8 ((s.lrc.sum.toNat + b.toNat) % 256) :=
    BitVec.eq_of_toNat_eq (by simp [lrcStep])
  refine ⟨rfl, ?_, ?_⟩
  · rw [← hadd]; rfl
  · rw [← lrcOfSum_toNat]; rfl

/-- The CRC operations after an initialisation: the accumulator takes the bytes in order, and a read
leaves it (R133). -/
theorem execAll_crc {ops : List Instr} (hops : ∀ i ∈ ops, i = .crcRead ∨ ∃ b, i = .crcUpd b)
    (s : State) :
    ∃ t, execAll ops s = .next t ∧ t.crc.acc = (crcBytes ops).foldl crcStep s.crc.acc := by
  induction ops generalizing s with
  | nil => exact ⟨s, rfl, rfl⟩
  | cons i ops ih =>
    obtain ⟨hi, hrest⟩ := List.forall_mem_cons.1 hops
    rcases hi with rfl | ⟨b, rfl⟩
    · exact ih hrest (s.setCrc (s.crc.emit (.value s.crc.acc.toNat)))
    · exact ih hrest (s.setCrc { s.crc with acc := crcStep s.crc.acc b })

/-- The LRC updates over a list: the sum takes the bytes in order, and nothing is emitted (R133). -/
theorem execAll_lrcUpd (bytes : List Byte) (s : State) :
    execAll (bytes.map .lrcUpd) s =
      .next (s.setLrc { s.lrc with sum := bytes.foldl lrcStep s.lrc.sum }) := by
  induction bytes generalizing s with
  | nil => rfl
  | cons b bytes ih => exact ih (s.setLrc { s.lrc with sum := lrcStep s.lrc.sum b })

/-- Settles O16: each engine folds the same step over the same bytes. -/
theorem streamingEqualsBatch : Obligations.StreamingEqualsBatch := by
  constructor
  · intro s ops hops
    exact execAll_crc hops (s.setCrc { s.crc with acc := crcInitial })
  · intro s bytes
    have hsum : execAll (.lrcInit :: bytes.map .lrcUpd) s =
        .next (s.setLrc { s.lrc with sum := byteSum bytes }) :=
      execAll_lrcUpd bytes (s.setLrc { s.lrc with sum := 0 })
    exact ⟨_, execAll_append hsum, rfl⟩

/-- Settles O17: the byte sum on naturals, and the zero sum. -/
theorem lrcMatchesIffSumIsZero : Obligations.LrcMatchesIffSumIsZero := by
  have hsum (m : List Byte) : (byteSum m).toNat = (m.map (·.toNat)).sum % 256 := by
    rw [byteSum, foldl_lrcStep_toNat, show (0 : Byte).toNat = 0 from rfl, Nat.zero_add]
  constructor
  · intro m
    rw [lrc8, lrcOfSum_toNat, hsum]
  · intro m r
    rw [lrc8_eq_iff, ← BitVec.toNat_inj, hsum]
    rfl

end Sys2Proof.Machine

/-! ### The words of each operation (30_encoding.md R90 to R93) -/

namespace Sys2Proof

/-- Fields put together are an OR of them, each shifted to its place (R90). -/
theorem Fields.toWord_eq_or (f : Fields) :
    f.toWord =
      f.op.setWidth 32 <<< 24 ||| f.t.setWidth 32 <<< 16 ||| f.r1.setWidth 32 <<< 13 |||
        (BitVec.ofBool f.k).setWidth 32 <<< 12 ||| f.r2.setWidth 32 <<< 10 |||
        (BitVec.ofBool f.o).setWidth 32 <<< 9 ||| (BitVec.ofBool f.v).setWidth 32 <<< 8 |||
        f.b.setWidth 32 := by
  apply BitVec.eq_of_getLsbD_eq
  intro i hi
  rw [Fields.getLsbD_toWord]
  simp only [BitVec.getLsbD_or, BitVec.getLsbD_shiftLeft, BitVec.getLsbD_setWidth,
    BitVec.getLsbD_ofBool]
  interval_cases i <;> simp [BitVec.getLsbD_of_ge]

/-- Payload byte `j` of packed bytes is byte `j` of them, and 0 past their end (R93). -/
theorem packPayload_getD (bs : List Byte) (j : Nat) :
    ((packPayload bs).getD (j / 4) 0).extractLsb' (8 * (j % 4)) 8 = bs.getD j 0 := by
  rw [← getD_payloadBytes, packPayload_bytes, List.getD_eq_getElem?_getD, List.getD_eq_getElem?_getD,
    List.getElem?_append]
  split
  next => rfl
  next h => rw [List.getElem?_eq_none (Nat.not_lt.1 h), List.getElem?_replicate]; split <;> rfl

end Sys2Proof

namespace Sys2Proof.Machine

/-- The head word of a submission is its OP and its three operands (R90, R93). -/
theorem encodeSubmission_eq (op t : Byte) (k : FrameKind) (address functionCode : Byte)
    {data : List Byte} (hlen : data.length ≤ 255) :
    encodeSubmission op t k address functionCode data =
      (op.setWidth 32 <<< 24 ||| (t.setWidth 32 <<< 16 |||
        (BitVec.ofBool (decide (k = .ascii))).setWidth 32 <<< 12 ||| BitVec.ofNat 32 data.length)) ::
        packPayload (address :: functionCode :: data) := by
  have hkind : kindBit k = decide (k = .ascii) := by cases k <;> rfl
  have hcount : (BitVec.ofNat 8 data.length).setWidth 32 = BitVec.ofNat 32 data.length := by
    apply BitVec.eq_of_toNat_eq
    simp only [BitVec.toNat_setWidth, BitVec.toNat_ofNat]
    omega
  simp [encodeSubmission, Fields.toWord_eq_or, hkind, hcount, BitVec.or_assoc]

/-- Settles O6: each row is its fields put together; the examples are decoded. -/
theorem encodingExamplesDecode : Obligations.EncodingExamplesDecode := by
  constructor
  · intro b t x c byte tag bit select
    refine ⟨?_, ?_, ?_, ?_, ?_, ?_, ?_, ?_, ?_, ?_, ?_, ?_, ?_, ?_, ?_, ?_, ?_, ?_, ?_, ?_, ?_, ?_,
      ?_, ?_, fun k address functionCode data hlen => ?submission⟩
    case submission =>
      exact ⟨packPayload (address :: functionCode :: data), encodeSubmission_eq _ t k _ _ hlen,
        encodeSubmission_eq _ t k _ _ hlen, packPayload_length _, packPayload_getD _⟩
    case refine_11 | refine_12 => cases c <;> rfl
    all_goals simp [encode, Fields.toWord_eq_or, byte, tag, bit]
  · decide

end Sys2Proof.Machine

/-! ### Taking the operation at the head of the stream (20_memory.md R70, R71, 41_rtu_receiver.md R190) -/

namespace Sys2Proof.Machine

/-- The state an operation executes in: its words consumed, and the clock at its timestamp when it is the
RTU transceiver's (R71, R190). -/
theorem keepLast_clocked_eq {s : State} {taken rest : List StreamWord} (hs : s.stream = taken ++ rest)
    (i : Instr) (τ : Nat) :
    (s.keepLast rest.length).clocked i τ =
      if unitOf i = .rtu then { s with stream := rest, rtu := { s.rtu with now := τ } }
      else { s with stream := rest } := by
  have hkeep : s.keepLast rest.length = { s with stream := rest } := by
    simp [State.keepLast, hs]
  rw [hkeep]
  rfl

/-- The port's duty refuses no operation but a completion the port does not owe (R272). -/
theorem portRefusal_eq_none {i : Instr} {s : State}
    (hrtu : ∀ failed, i = .rtuTxd failed → s.rtu.ch.life = .closed ∨ s.rtu.ch.writing = true)
    (hasc : ∀ failed, i = .ascTxd failed → s.asc.ch.life = .closed ∨ s.asc.ch.writing = true) :
    portRefusal i s = none := by
  have howed {c : Channel} (h : c.life = .closed ∨ c.writing = true) :
      ¬ c.owedNoCompletion = true := by
    rcases h with h | h <;> simp [Channel.owedNoCompletion, h]
  cases i with
  | rtuTxd failed => exact if_neg (howed (hrtu failed rfl))
  | ascTxd failed => exact if_neg (howed (hasc failed rfl))
  | _ => rfl

/-- Settles O7: the fetch finds the operation, and neither check refuses it. -/
theorem stepExecutesTheDecodedOperation : Obligations.StepExecutesTheDecodedOperation := by
  intro s i w ws rest hwf hs henc htime hrtu hasc
  have htiming : timingRefusal i w.stamp s = none := htime.elim timingRefusal_untimed id
  have hrefusal : streamRefusal i w.stamp s = none :=
    streamRefusal_eq_none.2 ⟨htiming, portRefusal_eq_none hrtu hasc⟩
  rw [step_of_encode hwf hs henc, hrefusal, keepLast_clocked_eq hs]
  rfl

/-- Settles O8: nothing is fetched from an empty stream. -/
theorem emptyStreamWaits : Obligations.EmptyStreamWaits := by
  intro s hs
  simp only [step, stepOnce, State.fetch, hs]

/-- Settles O11: the timing check answers that time goes back exactly when it does, and nothing else
answers it. -/
theorem timestampsNeverGoBack : Obligations.TimestampsNeverGoBack := by
  intro s i w ws rest hwf hs henc hl hi
  rw [step_of_encode hwf hs henc]
  by_cases hback : w.stamp < s.rtu.now
  · simp [streamRefusal, timingRefusal_timed hl hi, hback]
  · simp only [hback, iff_false]
    cases hr : streamRefusal i w.stamp s with
    | none =>
      intro h
      cases exec_refused h
    | some r =>
      rw [streamRefusal, timingRefusal_timed hl hi, if_neg hback] at hr
      rintro h
      obtain rfl : r = .timeReversed := by simpa using h
      rcases portRefusal_cases i s with hport | ⟨hport, -⟩ <;> split_ifs at hr <;> simp [hport] at hr

/-- The 1.5 window closes before the 3.5 deadline (R193). -/
theorem t15_add_slack_lt_t35 {c : LineConfig} {p : Params} (h : paramsValid c p = true) :
    t15 c + p.timerSlack < t35 c := by
  simp only [paramsValid, Bool.and_eq_true, decide_eq_true_eq] at h
  obtain ⟨-, hslack⟩ := h
  have hfloor : 250000 ≤ hct c := Nat.le_max_left _ _
  simp only [t15, t35, ceilDiv]
  omega

/-- In the timed layer a character that does not go back in time is refused as overdue past the window
of the awaited expiry, and received within it (R192). -/
theorem step_rtuRxc_timed {s : State} {w : StreamWord} {rest : List StreamWord} {b : Byte}
    {valid overrun : Bool} (hl : s.layer = .timed)
    (hs : s.stream = w :: rest) (henc : [w.word] = encode (.rtuRxc b valid overrun))
    (hτ : s.rtu.now ≤ w.stamp) :
    step s =
      if s.rtu.overdue s.params.timerSlack w.stamp = true then .refused .timerOverdue
      else exec (.rtuRxc b valid overrun)
        { s with stream := rest, rtu := { s.rtu with now := w.stamp } } := by
  rw [step_of_encode (ws := []) rfl hs henc, keepLast_clocked_eq (taken := [w]) hs, streamRefusal,
    timingRefusal_timed hl rfl, if_neg (Nat.not_lt.2 hτ)]
  split <;> rfl

/-- Settles O12: the awaited deadline is one timer after the last character, so the gap is in its window
or past it. -/
theorem gapDecidesTheNextCharacter : Obligations.GapDecidesTheNextCharacter := by
  refine ⟨fun c p _ hp => t15_add_slack_lt_t35 hp, ?_⟩
  intro s w rest b τ g hl hlife hs henc hw hτ h15 h35
  rw [step_rtuRxc_timed hl hs henc hτ]
  let taken : State := { s with stream := rest, rtu := { s.rtu with now := w.stamp } }
  refine ⟨fun hst harm hlen => ⟨fun hg => ?_, fun hg => ?_⟩,
    fun hst harm harm35 => ⟨fun hg => ?_, fun hg => ?_⟩⟩
  · rw [if_neg (by rw [RtuUnit.overdue_iff]; simp [harm, h15, hw]; omega)]
    have hnok : (taken.rtu.nok || false || !true || false) = s.rtu.nok := by simp [taken]
    exact ⟨_, (characterInReceptionExtendsTheRun taken b true false hlife hst).1 hlen, hst, rfl, hnok,
      rfl, rfl⟩
  · rw [if_pos (by rw [RtuUnit.overdue_iff]; simp [harm, h15, hw]; omega)]
  · rw [if_neg (by rw [RtuUnit.overdue_iff]; simp [harm, h35, hw]; omega)]
    exact ⟨_, characterInCtrlwaitSpoilsTheRun taken b true false hlife hst, hst, rfl, rfl, rfl⟩
  · rw [if_pos (by rw [RtuUnit.overdue_iff]; simp [harm, harm35, h35, hw]; omega)]

end Sys2Proof.Machine

/-! ### STAT, WAIT and the counters (43_transceiver.md R286, R287, R290, R291) -/

namespace Sys2Proof

/-- A counter operation's word is read by its select (R104). -/
theorem decode_counterWord {op : Byte} {make : CounterSelect → Instr}
    (hop : op = 0x25 ∧ make = .rtuCnr ∨ op = 0x26 ∧ make = .rtuCnz) (c : Byte) (ws : List Word) :
    decode ((op.setWidth 32 <<< 24 ||| c.setWidth 32) :: ws) =
      takeCounter make { op := op, b := c } ws := by
  have hword : op.setWidth 32 <<< 24 ||| c.setWidth 32 = Fields.toWord { op := op, b := c } := by
    simp [Fields.toWord_eq_or]
  rw [hword]
  rcases hop with ⟨rfl, rfl⟩ | ⟨rfl, rfl⟩ <;>
    simp [decode, formatOf, Format.reservedClear, decodeFields]

/-- The selects from 3 on are reserved (R104). -/
theorem counterOf_eq_none {c : Byte} (h : 3 ≤ c.toNat) : counterOf c = none := by
  revert c; decide

end Sys2Proof

namespace Sys2Proof.Machine

/-- Settles O50: the words are read by their select, and the counter it names is read or zeroed. -/
theorem counterAccess : Obligations.CounterAccess := by
  refine ⟨fun s => ⟨rfl, rfl, rfl, rfl, rfl, rfl⟩, ?_⟩
  intro c ws cnr cnz
  have hcnr : decode (cnr :: ws) = takeCounter .rtuCnr { op := 0x25, b := c } ws :=
    decode_counterWord (.inl ⟨rfl, rfl⟩) c ws
  have hcnz : decode (cnz :: ws) = takeCounter .rtuCnz { op := 0x26, b := c } ws :=
    decode_counterWord (.inr ⟨rfl, rfl⟩) c ws
  rw [hcnr, hcnz]
  refine ⟨?_, ?_, ?_, fun h => ?_⟩
  · rintro rfl; exact ⟨rfl, rfl⟩
  · rintro rfl; exact ⟨rfl, rfl⟩
  · rintro rfl; exact ⟨rfl, rfl⟩
  · simp [takeCounter, counterOf_eq_none h]

section
variable {s : State} {t : Tag}

theorem exec_rtuWait_of_used (ht : t ∈ s.rtu.ch.tags) : exec (.rtuWait t) s = .refused .tagReuse :=
  if_pos (Channel.outstanding_iff.2 ht)

theorem exec_rtuWait_of_unused (ht : t ∉ s.rtu.ch.tags) :
    exec (.rtuWait t) s = .next (s.setRtu (s.rtu.setCh (s.rtu.ch.addWaiter t))) :=
  if_neg (mt Channel.outstanding_iff.1 ht)

theorem exec_ascWait_of_used (ht : t ∈ s.asc.ch.tags) : exec (.ascWait t) s = .refused .tagReuse :=
  if_pos (Channel.outstanding_iff.2 ht)

theorem exec_ascWait_of_unused (ht : t ∉ s.asc.ch.tags) :
    exec (.ascWait t) s = .next (s.setAsc (s.asc.setCh (s.asc.ch.addWaiter t))) :=
  if_neg (mt Channel.outstanding_iff.1 ht)

end

theorem Channel.addWaiter_of_closed {c : Channel} (h : c.life = .closed) (t : Tag) :
    c.addWaiter t = c.complete t .ok := if_pos h

theorem Channel.addWaiter_of_not_closed {c : Channel} (h : c.life ≠ .closed) (t : Tag) :
    c.addWaiter t = { c with waiters := insertTag t c.waiters } := if_neg h

/-- Settles O49: the lifecycle decides what STAT reads and whether WAIT waits. -/
theorem statAndWait : Obligations.StatAndWait := by
  intro s t rtu asc reads
  refine ⟨rfl, rfl, exec_rtuWait_of_used, exec_ascWait_of_used, fun ht hl => ?_, fun ht hl => ?_,
    fun ht hl => ⟨insertTag t s.rtu.ch.waiters, ?_, fun _ => mem_insertTag⟩,
    fun ht hl => ⟨insertTag t s.asc.ch.waiters, ?_, fun _ => mem_insertTag⟩⟩
  · rw [exec_rtuWait_of_unused ht, Channel.addWaiter_of_closed hl]; rfl
  · rw [exec_ascWait_of_unused ht, Channel.addWaiter_of_closed hl]; rfl
  · rw [exec_rtuWait_of_unused ht, Channel.addWaiter_of_not_closed hl]; rfl
  · rw [exec_ascWait_of_unused ht, Channel.addWaiter_of_not_closed hl]; rfl

/-! ### The start of a write, and REFILL (41_rtu_receiver.md R178, 43_transceiver.md R264, R269) -/

/-- The frame RTU.STEP may take: an unstarted one in the slot of a unit that is OPEN and in IDLE (R178). -/
theorem RtuUnit.ready_eq_some_iff (u : RtuUnit) (slot : TxSlot) :
    u.ready = some slot ↔
      u.ch.life = .opened ∧ u.st = .idle ∧ u.ch.txreg = some slot ∧ slot.started = false := by
  unfold RtuUnit.ready
  split
  · rename_i slot' hl hst hslot
    cases hstarted : slot'.started <;> simp [hl, hst, hslot] <;> grind
  · rename_i hno
    simp only [reduceCtorEq, false_iff]
    rintro ⟨hl, hst, hslot, -⟩
    exact hno slot hl hst hslot

/-- The frame ASC.STEP may take: an unstarted one in the slot of a unit that is OPEN (R269). -/
theorem AscUnit.ready_eq_some_iff (u : AscUnit) (slot : TxSlot) :
    u.ready = some slot ↔
      u.ch.life = .opened ∧ u.ch.txreg = some slot ∧ slot.started = false := by
  unfold AscUnit.ready
  split
  · rename_i slot' hl hslot
    cases hstarted : slot'.started <;> simp [hl, hslot] <;> grind
  · rename_i hno
    simp only [reduceCtorEq, false_iff]
    rintro ⟨hl, hslot, -⟩
    exact hno slot hl hslot

theorem exec_rtuStep_of_ready {s : State} {slot : TxSlot} (h : s.rtu.ready = some slot) :
    exec .rtuStep s = .next (s.setRtu
      { s.rtu with
        ch := s.rtu.ch.startWrite slot (rtuEncode slot.frame), st := .emission, eph := .tx }) := by
  simp only [exec, execRtuStep, h]

theorem exec_rtuStep_of_not_ready {s : State} (h : s.rtu.ready = none) :
    exec .rtuStep s = .next s := by
  simp only [exec, execRtuStep, h]

/-- Settles O30: what makes the unit ready decides it. -/
theorem rtuStepStartsTheWrite : Obligations.RtuStepStartsTheWrite := by
  intro s
  refine ⟨fun t f hl hst hslot => ?_, fun hoff => exec_rtuStep_of_not_ready ?_⟩
  · rw [exec_rtuStep_of_ready ((RtuUnit.ready_eq_some_iff _ _).2 ⟨hl, hst, hslot, rfl⟩)]
    rfl
  · refine Option.eq_none_iff_forall_ne_some.2 fun slot hready => ?_
    obtain ⟨hl, hst, hslot, hstarted⟩ := (RtuUnit.ready_eq_some_iff _ _).1 hready
    simp [hl, hst, hslot, hstarted] at hoff

theorem exec_ascStep_of_sent {s : State} {slot : TxSlot} (h : s.asc.ready = some slot)
    {raw : List Byte} (hraw : asciiSend slot.frame = some raw) :
    exec .ascStep s = .next (s.setAsc (s.asc.setCh (s.asc.ch.startWrite slot raw))) := by
  simp only [exec, execAscStep, h, hraw]

theorem exec_ascStep_of_overflow {s : State} {slot : TxSlot} (h : s.asc.ready = some slot)
    (hraw : asciiSend slot.frame = none) : exec .ascStep s = .fault .asciiSendOverflow := by
  simp only [exec, execAscStep, h, hraw]

theorem exec_ascStep_of_not_ready {s : State} (h : s.asc.ready = none) :
    exec .ascStep s = .next s := by
  simp only [exec, execAscStep, h]

/-- The send buffer holds the encoding of exactly the frames of at most 252 data bytes (R88). -/
theorem asciiSend_eq (f : Frame) :
    asciiSend f = if f.data.length ≤ 252 then some (asciiEncode f) else none := by
  rw [asciiSend, asciiEncode_length, asciiTxCap]
  exact if_congr (by omega) rfl rfl

/-- Settles O43: what makes the unit ready, and whether the encoding fits. -/
theorem ascStepStartsTheWrite : Obligations.AscStepStartsTheWrite := by
  intro s
  refine ⟨fun t f hl hslot => ?_, fun hoff => exec_ascStep_of_not_ready ?_⟩
  · have hready : s.asc.ready = some ⟨t, f, false⟩ := (AscUnit.ready_eq_some_iff _ _).2 ⟨hl, hslot, rfl⟩
    refine ⟨fun hlen => ?_, fun hlen => ?_⟩
    · rw [exec_ascStep_of_sent hready ((asciiSend_eq f).trans (if_pos hlen))]
      rfl
    · exact exec_ascStep_of_overflow hready ((asciiSend_eq f).trans (if_neg (Nat.not_le.2 hlen)))
  · refine Option.eq_none_iff_forall_ne_some.2 fun slot hready => ?_
    obtain ⟨hl, hslot, hstarted⟩ := (AscUnit.ready_eq_some_iff _ _).1 hready
    simp [hl, hslot, hstarted] at hoff

/-- A set of submissions ascending by tag holds each once. -/
theorem nodup_of_ascending {hold : List Submission}
    (h : hold.Pairwise fun a b => a.tag.toNat < b.tag.toNat) : hold.Nodup :=
  h.imp fun hlt heq => by simp [heq] at hlt

/-- Settles O38: the one drawn leaves the set, in which it stands once. -/
theorem refillDrawsOneHeldSubmission : Obligations.RefillDrawsOneHeldSubmission := by
  intro own c hasc
  rcases c.refill_cases own with ⟨heq, hoff⟩ | ⟨hl, hslot, i, hi, heq⟩
  · refine ⟨fun hl hslot hne => ?_, fun _ => heq⟩
    simp [hl, hslot, hne] at hoff
  · refine ⟨fun _ _ _ => ⟨c.hold[i], List.getElem_mem hi, c.hold.eraseIdx i, heq, fun x => ?_⟩,
      fun hoff => ?_⟩
    · have hnodup := nodup_of_ascending hasc
      rw [← hnodup.erase_getElem i hi, hnodup.mem_erase_iff, and_comm]
    · have hne : c.hold ≠ [] := List.ne_nil_of_length_pos (by omega)
      simp [hl, hslot, hne] at hoff

end Sys2Proof.Machine

/-! ### The end of a write (43_transceiver.md R270, R271, R272) -/

namespace Sys2Proof.Machine

/-- The write a TXD completes: the started one of a unit that is not CLOSED (R270, R271). -/
theorem Channel.inFlight_eq_some_iff (c : Channel) (slot : TxSlot) :
    c.inFlight = some slot ↔
      c.life ≠ .closed ∧ c.txreg = some slot ∧ slot.started = true := by
  unfold Channel.inFlight
  split
  · simp_all
  · rename_i slot' hl hslot
    cases hstarted : slot'.started <;> simp_all <;> grind
  · simp_all

/-- No write is in flight in CLOSED, or where the slot holds no started write. -/
theorem Channel.inFlight_eq_none {c : Channel}
    (h : c.life = .closed ∨ ∀ slot ∈ c.txreg, slot.started = false) : c.inFlight = none := by
  refine Option.eq_none_iff_forall_ne_some.2 fun slot hslot => ?_
  obtain ⟨hl, hslot, hstarted⟩ := (c.inFlight_eq_some_iff slot).1 hslot
  simp [hl, hslot, hstarted] at h

section
variable {s : State} {slot : TxSlot} {failed : Bool}

theorem exec_rtuTxd_of_inFlight (h : s.rtu.ch.inFlight = some slot) :
    exec (.rtuTxd failed) s =
      .next (s.setRtu (s.rtu.setCh (s.rtu.ch.finishWrite slot failed)).endWrite) := by
  simp only [exec, execRtuTxd, h]

theorem exec_rtuTxd_of_none (h : s.rtu.ch.inFlight = none) : exec (.rtuTxd failed) s = .next s := by
  simp only [exec, execRtuTxd, h]

theorem exec_ascTxd_of_inFlight (h : s.asc.ch.inFlight = some slot) :
    exec (.ascTxd failed) s =
      .next (s.setAsc (s.asc.setCh (s.asc.ch.finishWrite slot failed)).endWrite) := by
  simp only [exec, execAscTxd, h]

theorem exec_ascTxd_of_none (h : s.asc.ch.inFlight = none) : exec (.ascTxd failed) s = .next s := by
  simp only [exec, execAscTxd, h]

end

section
variable {c : Channel}

theorem RtuUnit.endWrite_of_opened (u : RtuUnit) (h : c.life = .opened) :
    (u.setCh c).endWrite =
      { u with ch := c.refill .rtu, eph := .settle, arm35 := true, d35 := u.now + t35 u.cfg } :=
  if_neg (by simp [h])

theorem RtuUnit.endWrite_of_closing (u : RtuUnit) (h : c.life = .closing) :
    (u.setCh c).endWrite = (u.setCh c).completeClose := if_pos h

theorem AscUnit.endWrite_of_opened (u : AscUnit) (h : c.life = .opened) :
    (u.setCh c).endWrite = { u with ch := c.refill .ascii } := if_neg (by simp [h])

theorem AscUnit.endWrite_of_closing (u : AscUnit) (h : c.life = .closing) :
    (u.setCh c).endWrite = (u.setCh c).completeClose := if_pos h

end

/-- A step that no timestamp holds back is refused for the port's duty exactly when that refuses it (R272,
R328). -/
theorem step_eq_portDuty_iff {s : State} {i : Instr} {w : StreamWord} {rest : List StreamWord}
    (hwf : i.wf = true) (hs : s.stream = w :: rest) (henc : [w.word] = encode i)
    (htime : timingRefusal i w.stamp s = none) :
    step s = .refused .portDuty ↔ portRefusal i s = some .portDuty := by
  rw [step_of_encode (ws := []) hwf hs henc, streamRefusal, htime, Option.none_or]
  rcases portRefusal_cases i s with hport | ⟨hport, -⟩
  · simp only [hport, Option.map_none, Option.getD_none, reduceCtorEq, iff_false]
    intro h
    cases exec_refused h
  · simp [hport]

/-- Settles O39: the write in flight, the port's duty, and END_WRITE in each lifecycle. -/
theorem rtuWriteCompletion : Obligations.RtuWriteCompletion := by
  intro s failed u code
  refine ⟨fun hoff => exec_rtuTxd_of_none (Channel.inFlight_eq_none hoff),
    fun w rest hs henc htime => ?_, fun t f hslot => ⟨fun hl => ?_, fun hl => ?_⟩⟩
  · rw [step_eq_portDuty_iff rfl hs henc (htime.elim timingRefusal_untimed id),
      ← Channel.owedNoCompletion_iff]
    simp [portRefusal, u]
  · rw [exec_rtuTxd_of_inFlight ((Channel.inFlight_eq_some_iff _ _).2 ⟨by simp [u, hl], hslot, rfl⟩),
      RtuUnit.endWrite_of_opened _ (by simpa using hl)]
    rfl
  · rw [exec_rtuTxd_of_inFlight ((Channel.inFlight_eq_some_iff _ _).2 ⟨by simp [u, hl], hslot, rfl⟩),
      RtuUnit.endWrite_of_closing _ (by simpa using hl)]
    rfl

/-- Settles O40: as for the RTU transceiver, with no settle wait. -/
theorem ascWriteCompletion : Obligations.AscWriteCompletion := by
  intro s failed u code
  refine ⟨fun hoff => exec_ascTxd_of_none (Channel.inFlight_eq_none hoff),
    fun w rest hs henc => ?_, fun t f hslot => ⟨fun hl => ?_, fun hl => ?_⟩⟩
  · rw [step_eq_portDuty_iff rfl hs henc (timingRefusal_of_unitOf (by simp [unitOf])),
      ← Channel.owedNoCompletion_iff]
    simp [portRefusal, u]
  · rw [exec_ascTxd_of_inFlight ((Channel.inFlight_eq_some_iff _ _).2 ⟨by simp [u, hl], hslot, rfl⟩),
      AscUnit.endWrite_of_opened _ (by simpa using hl)]
    rfl
  · rw [exec_ascTxd_of_inFlight ((Channel.inFlight_eq_some_iff _ _).2 ⟨by simp [u, hl], hslot, rfl⟩),
      AscUnit.endWrite_of_closing _ (by simpa using hl)]
    rfl

end Sys2Proof.Machine

/-! ### Cancellation (43_transceiver.md R275, R277) -/

namespace Sys2Proof.Machine

section
variable {c : Channel} {t : Tag} {slot : TxSlot}

theorem Channel.holds_iff : c.holds t = true ↔ ∃ h ∈ c.hold, h.tag = t := by
  simp [Channel.holds]

/-! What each answer of `cancelTarget` says, the first that holds (R275). -/

theorem Channel.cancelTarget_eq_held_iff : c.cancelTarget t = .held ↔ ∃ h ∈ c.hold, h.tag = t := by
  rw [← Channel.holds_iff, Channel.cancelTarget]
  split
  · simp_all
  · cases c.txreg <;> grind

theorem Channel.cancelTarget_eq_unstarted_iff :
    c.cancelTarget t = .unstarted slot ↔
      (¬∃ h ∈ c.hold, h.tag = t) ∧ c.txreg = some slot ∧ slot.tag = t ∧ slot.started = false := by
  rw [← Channel.holds_iff, Channel.cancelTarget]
  cases c.txreg <;> grind

theorem Channel.cancelTarget_eq_inFlight_iff :
    c.cancelTarget t = .inFlight slot ↔
      (¬∃ h ∈ c.hold, h.tag = t) ∧ c.txreg = some slot ∧ slot.tag = t ∧ slot.started = true := by
  rw [← Channel.holds_iff, Channel.cancelTarget]
  cases c.txreg <;> grind

theorem Channel.cancelTarget_eq_waiter_iff :
    c.cancelTarget t = .waiter ↔
      (¬∃ h ∈ c.hold, h.tag = t) ∧ (∀ slot ∈ c.txreg, slot.tag ≠ t) ∧ t ∈ c.waiters := by
  rw [← Channel.holds_iff, Channel.cancelTarget, ← List.contains_iff_mem]
  cases c.txreg <;> grind

/-- A tag of no outstanding request names nothing. -/
theorem Channel.cancelTarget_of_not_mem (ht : t ∉ c.tags) : c.cancelTarget t = .nothing := by
  simp only [Channel.tags, List.mem_append, List.mem_map, Option.mem_toList, not_or] at ht
  obtain ⟨⟨hhold, hslot⟩, hwaiters⟩ := ht
  cases htarget : c.cancelTarget t with
  | held => exact absurd (Channel.cancelTarget_eq_held_iff.1 htarget) hhold
  | unstarted slot =>
    obtain ⟨-, hreg, htag, -⟩ := Channel.cancelTarget_eq_unstarted_iff.1 htarget
    exact absurd ⟨slot, hreg, htag⟩ hslot
  | inFlight slot =>
    obtain ⟨-, hreg, htag, -⟩ := Channel.cancelTarget_eq_inFlight_iff.1 htarget
    exact absurd ⟨slot, hreg, htag⟩ hslot
  | waiter => exact absurd (Channel.cancelTarget_eq_waiter_iff.1 htarget).2.2 hwaiters
  | nothing => rfl

/-- An aborted write leaves the first `n` bytes of its raw frame on the line, for some `n` (R277; log 11). -/
theorem Channel.abortWrite_eq (c : Channel) (own : FrameKind) (slot : TxSlot)
    (code : CompletionCode) :
    ∃ n ≤ (rawFrame slot.frame).length, c.abortWrite own slot code =
      { c with
        txreg := none
        out := c.out ++ [.portTxAbort, .result slot.tag code]
        draws := c.draws + 1
        linePrefixes := c.linePrefixes ++ [(rawFrame slot.frame).take n] } := by
  refine ⟨Config.freePrefixLength own c.draws % ((rawFrame slot.frame).length + 1),
    Nat.le_of_lt_succ (Nat.mod_lt _ (Nat.succ_pos _)), ?_⟩
  simp [Channel.abortWrite, Channel.complete, Channel.emit, Channel.emitAll, drawnPrefix]

theorem Channel.cancelHeld_eq (c : Channel) (t : Tag) :
    c.cancelHeld t = { c with
      hold := c.hold.filter (fun h => h.tag ≠ t)
      out := c.out ++ [.result t .operationCancelled] } := by
  simp [Channel.cancelHeld, Channel.complete, Channel.emit, Channel.emitAll, bne, BEq.beq]

theorem Channel.cancelWaiter_eq (c : Channel) (t : Tag) :
    c.cancelWaiter t = { c with
      waiters := c.waiters.filter (fun x => x ≠ t)
      out := c.out ++ [.result t .operationCancelled] } := by
  simp [Channel.cancelWaiter, Channel.complete, Channel.emit, Channel.emitAll, bne, BEq.beq]

end

/-- What a cancellation makes of an RTU transceiver that is not CLOSED (R275). -/
def RtuUnit.cancel (u : RtuUnit) (t : Tag) : RtuUnit :=
  match u.ch.cancelTarget t with
  | .held => u.setCh (u.ch.cancelHeld t)
  | .unstarted _ => u.setCh (u.ch.cancelUnstarted .rtu t)
  | .inFlight slot => (u.setCh (u.ch.abortWrite .rtu slot .operationCancelled)).endWrite
  | .waiter => u.setCh (u.ch.cancelWaiter t)
  | .nothing => u

/-- What a cancellation makes of an ASCII transceiver that is not CLOSED (R275). -/
def AscUnit.cancel (u : AscUnit) (t : Tag) : AscUnit :=
  match u.ch.cancelTarget t with
  | .held => u.setCh (u.ch.cancelHeld t)
  | .unstarted _ => u.setCh (u.ch.cancelUnstarted .ascii t)
  | .inFlight slot => (u.setCh (u.ch.abortWrite .ascii slot .operationCancelled)).endWrite
  | .waiter => u.setCh (u.ch.cancelWaiter t)
  | .nothing => u

section
variable {s : State} {t : Tag}

theorem exec_rtuCxl_of_closed (h : s.rtu.ch.life = .closed) : exec (.rtuCxl t) s = .next s := if_pos h

theorem exec_ascCxl_of_closed (h : s.asc.ch.life = .closed) : exec (.ascCxl t) s = .next s := if_pos h

theorem exec_rtuCxl_of_not_closed (h : s.rtu.ch.life ≠ .closed) :
    exec (.rtuCxl t) s = .next (s.setRtu (s.rtu.cancel t)) := by
  simp only [exec, execRtuCxl, h, if_false, RtuUnit.cancel]
  cases s.rtu.ch.cancelTarget t <;> rfl

theorem exec_ascCxl_of_not_closed (h : s.asc.ch.life ≠ .closed) :
    exec (.ascCxl t) s = .next (s.setAsc (s.asc.cancel t)) := by
  simp only [exec, execAscCxl, h, if_false, AscUnit.cancel]
  cases s.asc.ch.cancelTarget t <;> rfl

end

/-- Settles O41: what the tag names decides what is undone. -/
theorem rtuCancellation : Obligations.RtuCancellation := by
  intro s t u c cancelled held
  have hexec (hl : c.life ≠ .closed) : exec (.rtuCxl t) s = .next (s.setRtu (u.cancel t)) :=
    exec_rtuCxl_of_not_closed hl
  refine ⟨fun hoff => ?_, fun hl =>
    ⟨fun hheld => ?_, fun f hno hslot => ?_, fun f hno hslot hkind => ?_, fun hno hslot hw => ?_⟩⟩
  · by_cases hl : c.life = .closed
    · exact exec_rtuCxl_of_closed hl
    · rw [hexec hl, RtuUnit.cancel, Channel.cancelTarget_of_not_mem (hoff.resolve_left hl)]
      rfl
  · rw [hexec hl, RtuUnit.cancel, Channel.cancelTarget_eq_held_iff.2 hheld]
    simp only [Channel.cancelHeld_eq]
    rfl
  · rw [hexec hl, RtuUnit.cancel, Channel.cancelTarget_eq_unstarted_iff.2 ⟨hno, hslot, rfl, rfl⟩]
    rfl
  · obtain ⟨n, hn, habort⟩ := c.abortWrite_eq .rtu ⟨t, f, true⟩ .operationCancelled
    have hraw : rawFrame f = rtuEncode f := by simp [rawFrame, hkind]
    simp only [hraw] at hn habort
    refine ⟨n, hn, ?_⟩
    rw [hexec hl, RtuUnit.cancel, Channel.cancelTarget_eq_inFlight_iff.2 ⟨hno, hslot, rfl, rfl⟩]
    simp only [u, c, habort]
    refine ⟨fun hl => ?_, fun hl => ?_⟩
    · rw [RtuUnit.endWrite_of_opened _ (by exact hl)]; rfl
    · rw [RtuUnit.endWrite_of_closing _ (by exact hl)]; rfl
  · rw [hexec hl, RtuUnit.cancel, Channel.cancelTarget_eq_waiter_iff.2 ⟨hno, hslot, hw⟩]
    simp only [Channel.cancelWaiter_eq]
    rfl

/-- Settles O42: as for the RTU transceiver, with no settle wait. -/
theorem ascCancellation : Obligations.AscCancellation := by
  intro s t u c cancelled held
  have hexec (hl : c.life ≠ .closed) : exec (.ascCxl t) s = .next (s.setAsc (u.cancel t)) :=
    exec_ascCxl_of_not_closed hl
  refine ⟨fun hoff => ?_, fun hl =>
    ⟨fun hheld => ?_, fun f hno hslot => ?_, fun f hno hslot hkind => ?_, fun hno hslot hw => ?_⟩⟩
  · by_cases hl : c.life = .closed
    · exact exec_ascCxl_of_closed hl
    · rw [hexec hl, AscUnit.cancel, Channel.cancelTarget_of_not_mem (hoff.resolve_left hl)]
      rfl
  · rw [hexec hl, AscUnit.cancel, Channel.cancelTarget_eq_held_iff.2 hheld]
    simp only [Channel.cancelHeld_eq]
    rfl
  · rw [hexec hl, AscUnit.cancel, Channel.cancelTarget_eq_unstarted_iff.2 ⟨hno, hslot, rfl, rfl⟩]
    rfl
  · obtain ⟨n, hn, habort⟩ := c.abortWrite_eq .ascii ⟨t, f, true⟩ .operationCancelled
    have hraw : rawFrame f = asciiEncode f := by simp [rawFrame, hkind]
    simp only [hraw] at hn habort
    refine ⟨n, hn, ?_⟩
    rw [hexec hl, AscUnit.cancel, Channel.cancelTarget_eq_inFlight_iff.2 ⟨hno, hslot, rfl, rfl⟩]
    simp only [u, c, habort]
    refine ⟨fun hl => ?_, fun hl => ?_⟩
    · rw [AscUnit.endWrite_of_opened _ (by exact hl)]; rfl
    · rw [AscUnit.endWrite_of_closing _ (by exact hl)]; rfl
  · rw [hexec hl, AscUnit.cancel, Channel.cancelTarget_eq_waiter_iff.2 ⟨hno, hslot, hw⟩]
    simp only [Channel.cancelWaiter_eq]
    rfl

end Sys2Proof.Machine

/-! ### The closes (43_transceiver.md R280 to R285) -/

namespace Sys2Proof.Machine

/-- The tags of the requests that have not begun, in ascending order (R282). -/
def Channel.Pending (c : Channel) (failed : List Tag) : Prop :=
  failed.Pairwise (fun a b => a.toNat < b.toNat) ∧
  ∀ x, x ∈ failed ↔ (∃ h ∈ c.hold, h.tag = x) ∨
    ∃ slot ∈ c.txreg, slot.started = false ∧ slot.tag = x

/-- What FAIL_PENDING completes is the requests that have not begun (R282). -/
theorem Channel.pending_pendingTags {c : Channel}
    (h : c.hold.Pairwise fun a b => a.tag.toNat < b.tag.toNat) : c.Pending c.pendingTags := by
  have hhold : (c.hold.map (·.tag)).Pairwise (fun a b => a.toNat < b.toNat) := List.pairwise_map.2 h
  unfold Channel.Pending Channel.pendingTags
  cases hslot : c.txreg with
  | none => exact ⟨hhold, by simp⟩
  | some slot =>
    cases hstarted : slot.started with
    | true => exact ⟨by simpa [hstarted] using hhold, by simp [hstarted]⟩
    | false =>
      refine ⟨by simpa [hstarted] using insertTag_ascending hhold, fun x => ?_⟩
      have hslots : (∃ slot' ∈ some slot, slot'.started = false ∧ slot'.tag = x) ↔ x = slot.tag := by
        simp [hstarted, eq_comm (a := x)]
      simp only [hstarted, Bool.false_eq_true, if_false, mem_insertTag, List.mem_map, hslots]
      exact or_comm

theorem Channel.failPending_eq (c : Channel) :
    c.failPending = { c with
      out := c.out ++ c.pendingTags.map (.result · .invalidOperation)
      hold := []
      txreg := c.txreg.filter (·.started) } := by
  have hslot : (if c.unstarted then none else c.txreg) = c.txreg.filter (·.started) := by
    cases hslot : c.txreg with
    | none => simp
    | some slot =>
      cases hstarted : slot.started <;>
        simp [Channel.unstarted, hslot, hstarted, Option.filter_some]
  simp [Channel.failPending, Channel.emitAll, hslot]

/-- COMPLETE_CLOSE of a port that is not disposed (R284). -/
theorem Channel.completeClose_of_undisposed {c : Channel} (h : c.disposed = false) :
    c.completeClose = { c with
      life := .closed
      disposed := true
      waiters := []
      out := c.out ++ [.portDispose] ++ c.waiters.map (.result · .ok) } := by
  simp [Channel.completeClose, Channel.emitAll, h]

/-- The wait points of the RTU receiver (R280, R282). -/
theorem RtuUnit.nothingInFlight_iff (u : RtuUnit) :
    u.nothingInFlight = true ↔
      u.st = .init ∨ u.st = .idle ∨ (u.st = .emission ∧ u.eph = .settle) := by
  cases hst : u.st <;> simp [RtuUnit.nothingInFlight, hst]

/-- The RTU receiver is at a wait point, or something is in flight, and not both. -/
theorem RtuUnit.not_nothingInFlight_iff (u : RtuUnit) :
    ¬ u.nothingInFlight = true ↔
      u.st = .reception ∨ u.st = .ctrlwait ∨ (u.st = .emission ∧ u.eph = .tx) := by
  cases hst : u.st <;> cases hp : u.eph <;> simp [RtuUnit.nothingInFlight, hst, hp]

section
variable {s : State}

theorem exec_rtuCls_of_closed (h : s.rtu.ch.life = .closed) (forcibly : Bool) :
    exec (.rtuCls forcibly) s = .next s := by
  simp only [exec, execRtuCls, h]

theorem exec_rtuCls_graceful_of_not_opened (h : s.rtu.ch.life ≠ .opened) :
    exec (.rtuCls false) s = .next s := by
  cases hl : s.rtu.ch.life <;> simp_all [exec, execRtuCls]

theorem exec_rtuCls_graceful_of_opened (h : s.rtu.ch.life = .opened) :
    exec (.rtuCls false) s = .next (s.setRtu s.rtu.beginClose) := by
  simp only [exec, execRtuCls, h]

theorem exec_rtuCls_forcible (h : s.rtu.ch.life ≠ .closed) :
    exec (.rtuCls true) s = .next (s.setRtu s.rtu.terminate) := by
  cases hl : s.rtu.ch.life <;> simp_all [exec, execRtuCls]

theorem exec_ascCls_of_closed (h : s.asc.ch.life = .closed) (forcibly : Bool) :
    exec (.ascCls forcibly) s = .next s := by
  simp only [exec, execAscCls, h]

theorem exec_ascCls_graceful_of_not_opened (h : s.asc.ch.life ≠ .opened) :
    exec (.ascCls false) s = .next s := by
  cases hl : s.asc.ch.life <;> simp_all [exec, execAscCls]

theorem exec_ascCls_graceful_of_opened (h : s.asc.ch.life = .opened) :
    exec (.ascCls false) s = .next (s.setAsc s.asc.beginClose) := by
  simp only [exec, execAscCls, h]

theorem exec_ascCls_forcible (h : s.asc.ch.life ≠ .closed) :
    exec (.ascCls true) s = .next (s.setAsc s.asc.terminate) := by
  cases hl : s.asc.ch.life <;> simp_all [exec, execAscCls]

end

/-- Settles O44: FAIL_PENDING, and COMPLETE_CLOSE at a wait point. -/
theorem rtuGracefulClose : Obligations.RtuGracefulClose := by
  intro s hinv u c
  refine ⟨exec_rtuCls_graceful_of_not_opened, fun hl => ?_⟩
  have hdisposed : c.disposed = false := (hinv.channel.undisposed (by simp [c, u, hl])).1
  obtain ⟨hordered, hmem⟩ := Channel.pending_pendingTags hinv.channel.holdAscending
  refine ⟨c.pendingTags, hordered, hmem, fun hbusy => ?_, fun hwait => ?_⟩
  · rw [exec_rtuCls_graceful_of_opened hl, RtuUnit.beginClose,
      if_neg (s.rtu.not_nothingInFlight_iff.2 hbusy), Channel.failPending_eq]
    rfl
  · rw [exec_rtuCls_graceful_of_opened hl, RtuUnit.beginClose,
      if_pos (s.rtu.nothingInFlight_iff.2 hwait), RtuUnit.completeClose, RtuUnit.setCh_ch,
      Channel.completeClose_of_undisposed (by exact hdisposed), Channel.failPending_eq]
    rfl

/-- After FAIL_PENDING the slot is empty exactly when no write is in flight. -/
theorem Channel.failPending_txreg_isNone (c : Channel) :
    c.failPending.txreg.isNone = !c.writing := by
  rw [Channel.failPending_eq]
  cases hslot : c.txreg with
  | none => simp [Channel.writing, hslot]
  | some slot => cases hstarted : slot.started <;> simp [Channel.writing, hslot, hstarted]

/-- Settles O45: FAIL_PENDING, the reception abandoned, and COMPLETE_CLOSE when no write is in flight. -/
theorem ascGracefulClose : Obligations.AscGracefulClose := by
  intro s hinv u c
  refine ⟨exec_ascCls_graceful_of_not_opened, fun hl => ?_⟩
  have hslot : ({ c with life := .closing }.failPending).txreg.isNone = !c.writing :=
    Channel.failPending_txreg_isNone _
  have hdisposed : c.disposed = false := (hinv.channel.undisposed (by simp [c, u, hl])).1
  obtain ⟨hordered, hmem⟩ := Channel.pending_pendingTags hinv.channel.holdAscending
  refine ⟨c.pendingTags, hordered, hmem, fun hbusy => ?_, fun hwait => ?_⟩
  · rw [exec_ascCls_graceful_of_opened hl, AscUnit.beginClose, if_neg (by rw [hslot, hbusy]; decide),
      Channel.failPending_eq]
    rfl
  · rw [exec_ascCls_graceful_of_opened hl, AscUnit.beginClose, if_pos (by rw [hslot, hwait]; decide),
      AscUnit.completeClose, Channel.completeClose_of_undisposed (by exact hdisposed),
      Channel.failPending_eq]
    rfl

/-- The mark a write in flight leaves when it is aborted: the events, the draw and the first bytes of the
raw frame on the line; none when no write is in flight (R277, R283; log 11). -/
def Channel.Aborted (c : Channel) (abort : List Event) (draws : Nat) (prefixes : List (List Byte)) :
    Prop :=
  (c.writing = false → abort = [] ∧ draws = c.draws ∧ prefixes = c.linePrefixes) ∧
  (∀ t f, c.txreg = some ⟨t, f, true⟩ →
    abort = [.portTxAbort, .result t .invalidOperation] ∧ draws = c.draws + 1 ∧
    ∃ n ≤ (rawFrame f).length, prefixes = c.linePrefixes ++ [(rawFrame f).take n])

/-- TERMINATE empties the transmit side in R331's order: the pending requests, then the write in flight
(R283). -/
theorem Channel.abandon_eq (c : Channel) (own : FrameKind) :
    ∃ abort draws prefixes, c.Aborted abort draws prefixes ∧
      c.abandon own = { c with
        hold := []
        txreg := none
        out := c.out ++ c.pendingTags.map (.result · .invalidOperation) ++ abort
        draws := draws
        linePrefixes := prefixes } := by
  cases hw : c.writing with
  | false =>
    have hslot : c.failPending.txreg = none := by
      simpa [hw, -Channel.failPending_txreg] using c.failPending_txreg_isNone
    refine ⟨[], c.draws, c.linePrefixes, ⟨fun _ => ⟨rfl, rfl, rfl⟩, fun t f hslot => ?_⟩, ?_⟩
    · simp [Channel.writing, hslot] at hw
    · have habandon : c.abandon own = { c.failPending with txreg := none } := by
        simp only [Channel.abandon, hslot]
        rw [← hslot]
      rw [habandon, Channel.failPending_eq, List.append_nil]
  | true =>
    obtain ⟨⟨t, f, started⟩, hslot, rfl⟩ : ∃ slot : TxSlot, c.txreg = some slot ∧ slot.started = true := by
      simpa [Channel.writing, Option.any_eq_true] using hw
    obtain ⟨n, hn, habort⟩ := c.failPending.abortWrite_eq own ⟨t, f, true⟩ .invalidOperation
    have habandon : c.abandon own = c.failPending.abortWrite own ⟨t, f, true⟩ .invalidOperation := by
      simp [Channel.abandon, hslot, Channel.unstarted]
    refine ⟨[.portTxAbort, .result t .invalidOperation], c.draws + 1,
      c.linePrefixes ++ [(rawFrame f).take n], ⟨fun hno => by simp [hw] at hno, fun t' f' hslot' => ?_⟩,
      by rw [habandon, habort, Channel.failPending_eq]⟩
    cases hslot.symm.trans hslot'
    exact ⟨rfl, rfl, n, hn, rfl⟩

/-- The forcible close of the transmit side of a port that is not disposed (R283, R284). -/
theorem Channel.abandon_completeClose {c : Channel} (h : c.disposed = false) (own : FrameKind) :
    ∃ abort draws prefixes, c.Aborted abort draws prefixes ∧
      (c.abandon own).completeClose = { c with
        life := .closed
        txreg := none
        hold := []
        waiters := []
        disposed := true
        out := c.out ++ c.pendingTags.map (.result · .invalidOperation) ++ abort ++ [.portDispose] ++
          c.waiters.map (.result · .ok)
        draws := draws
        linePrefixes := prefixes } := by
  obtain ⟨abort, draws, prefixes, hmark, heq⟩ := c.abandon_eq own
  refine ⟨abort, draws, prefixes, hmark, ?_⟩
  rw [Channel.completeClose_of_undisposed (by rw [heq]; exact h), heq]

/-- Settles O46: TERMINATE, then COMPLETE_CLOSE, on either transceiver. -/
theorem forcibleClose : Obligations.ForcibleClose := by
  intro s closed ordered inFlight
  refine ⟨fun hinv => ⟨fun hl => exec_rtuCls_of_closed hl true, fun hl => ?_⟩,
    fun hinv => ⟨fun hl => exec_ascCls_of_closed hl true, fun hl => ?_⟩⟩
  · obtain ⟨abort, draws, prefixes, hmark, heq⟩ :=
      Channel.abandon_completeClose (hinv.channel.undisposed hl).1 .rtu
    refine ⟨_, abort, draws, prefixes, Channel.pending_pendingTags hinv.channel.holdAscending, hmark, ?_⟩
    rw [exec_rtuCls_forcible hl, RtuUnit.terminate, RtuUnit.completeClose, RtuUnit.setCh_ch, heq]
    rfl
  · obtain ⟨abort, draws, prefixes, hmark, heq⟩ :=
      Channel.abandon_completeClose (hinv.channel.undisposed hl).1 .ascii
    refine ⟨_, abort, draws, prefixes, Channel.pending_pendingTags hinv.channel.holdAscending, hmark, ?_⟩
    rw [exec_ascCls_forcible hl, AscUnit.terminate, AscUnit.completeClose, AscUnit.setCh_ch, heq]
    rfl

end Sys2Proof.Machine

/-! ### Reset meets the invariant (10_state.md R45, R46, 70_reset_and_hazards.md R351) -/

namespace Sys2Proof.Machine

theorem ChannelInv.reset (own : FrameKind) : ChannelInv own Channel.reset where
  holdAscending := List.Pairwise.nil
  waitersAscending := List.Pairwise.nil
  tagsDistinct := List.nodup_nil
  holdFrames := by simp [Channel.reset]
  slotFrame := by simp [Channel.reset]
  holdNeedsSlot := by simp [Channel.reset]
  closingDrained := by simp [Channel.reset]
  closedEmpty := by simp [Channel.reset]
  disposedClosed := by simp [Channel.reset]
  disposedOnce := rfl

theorem RtuInv.reset {c : LineConfig} (h : configValid c = true) : RtuInv (RtuUnit.reset c) where
  channel := ChannelInv.reset .rtu
  config := h
  arm15 := by simp [RtuUnit.reset]
  arm35 := by simp [RtuUnit.reset]
  writing := by simp [RtuUnit.reset, Channel.reset, Channel.writing]
  phase := fun _ => rfl
  bufCap := Nat.zero_le _
  runBuf := by simp [RtuUnit.reset]
  noRun := fun _ => ⟨rfl, rfl, rfl, rfl⟩
  flagsNok := by simp [RtuUnit.reset]
  closingInFlight := by simp [RtuUnit.reset, Channel.reset]
  closedIdle := by simp [RtuUnit.reset, Channel.reset]
  deadlines := by simp [RtuUnit.reset]

theorem AscInv.reset {c : LineConfig} (h : configValid c = true) (p : Params) :
    AscInv p (AscUnit.reset c) where
  channel := ChannelInv.reset .ascii
  config := h
  idleClear := fun _ => ⟨rfl, rfl⟩
  startsWithColon := by simp [AscUnit.reset]
  eofAfterCr := by simp [AscUnit.reset]
  bufCap := Nat.zero_le _
  closingWriting := by simp [AscUnit.reset, Channel.reset]
  closedIdle := fun _ => rfl

/-- Settles O33: the reset state is the constructed one of its own configuration, and the awaited expiry of
a constructed unit is still to come. -/
theorem resetMeetsTheInvariant : Obligations.ResetMeetsTheInvariant := by
  have hconstructed (rtuCfg ascCfg : LineConfig) (p : Params) (l : Layer) (stream : List StreamWord)
      (hrtu : configValid rtuCfg = true) (hasc : configValid ascCfg = true)
      (hp : paramsValid rtuCfg p = true) :
      Inv { State.reset with
        rtu := RtuUnit.reset rtuCfg, asc := AscUnit.reset ascCfg, params := p, layer := l
        stream := stream } :=
    ⟨RtuInv.reset hrtu, AscInv.reset hasc p, hp, fun _ _ _ => Nat.zero_le _⟩
  exact ⟨hconstructed _ _ _ _ _ resetChoice_valid resetChoice_valid (by decide), hconstructed⟩

/-! ### Recovery, and the ASCII receptor (60_exceptions.md R334, 42_ascii_receiver.md R220 to R230) -/

theorem exec_ascRxc_of_not_opened {s : State} (h : s.asc.ch.life ≠ .opened) (b : Byte) (valid : Bool) :
    exec (.ascRxc b valid) s = .next s := if_neg h

/-- In the untimed layer RTU.T15 finds the run of an OPEN unit in CTRLWAIT, or takes it there (R170,
R180). -/
theorem exec_rtuT15_of_run {s : State} (hinv : RtuInv s.rtu) (hlayer : s.layer = .untimed)
    (hlife : s.rtu.ch.life = .opened) (hrun : s.rtu.st = .reception ∨ s.rtu.st = .ctrlwait) :
    ∃ t, exec .rtuT15 s = .next t ∧ t.layer = .untimed ∧ t.rtu.ch.life = .opened ∧
      t.rtu.st = .ctrlwait ∧ t.rtu.arm35 = true ∧ t.rtu.arm15 = false := by
  have h35 : s.rtu.arm35 = true := hinv.arm35.2 (by tauto)
  obtain ⟨hoff, hon⟩ := shortTimerEndsTheMainBytes s
  rcases hrun with hst | hst
  · exact ⟨_, hon (by simp [hlife]) (hinv.arm15.2 hst) (.inl hlayer), hlayer, hlife, rfl, h35, rfl⟩
  · have h15 : s.rtu.arm15 = false := by
      rw [← Bool.not_eq_true, hinv.arm15, hst]
      simp
    exact ⟨s, hoff (.inr h15), hlayer, hlife, hst, h35, h15⟩

/-- Settles O57: the two expiries end a run, and a ':' restarts a frame, in every state. -/
theorem receiversRecover : Obligations.ReceiversRecover := by
  refine fun s hinv => ⟨fun hlayer hlife hrun => ?_, fun hlife valid => ?_⟩
  · obtain ⟨t, hfirst, hlayer, hlife, hst, h35, h15⟩ := exec_rtuT15_of_run hinv.rtu hlayer hlife hrun
    obtain ⟨_, _, _, -, -, -, -, hopen, -⟩ := longTimerFinalizesTheRun t hst h35 h15 (.inl hlayer)
    obtain ⟨shown, -, -, hend⟩ := hopen hlife
    have hall {t' : State} (h : exec .rtuT35 t = .next t') :
        execAll [.rtuT15, .rtuT35] s = .next t' := by simp only [execAll, hfirst, h]
    exact ⟨_, hall hend, rfl, hlife, rfl, rfl, rfl, rfl⟩
  · have hcolon := AscUnit.receive_colon s.asc s.params valid
    rw [exec_ascRxc_of_opened hlife, show (0x3A : Byte) = colon from rfl, hcolon]
    rfl

theorem AscUnit.receive_of_idle {u : AscUnit} (h : u.ast = .idle) (p : Params) {b : Byte}
    (hcolon : b ≠ colon) (valid : Bool) : u.receive p b valid = u := by
  simp [AscUnit.receive, h, hcolon]

theorem AscUnit.receive_carriageReturn_of_eof {u : AscUnit} (h : u.ast = .eof) (p : Params)
    (valid : Bool) : u.receive p carriageReturn valid = u.app p carriageReturn valid := by
  simp [AscUnit.receive, h, carriageReturn, colon, lineFeed]

theorem AscUnit.receive_other_of_eof {u : AscUnit} (h : u.ast = .eof) (p : Params) {b : Byte}
    (hcolon : b ≠ colon) (hcr : b ≠ carriageReturn) (hlf : b ≠ lineFeed) (valid : Bool) :
    u.receive p b valid = { u.app p b valid with ast := .append } := by
  simp [AscUnit.receive, h, hcolon, hcr, hlf]

/-- Settles O58: the receptor's rule for the character in the state it is in. -/
theorem asciiReceptorTransitions : Obligations.AsciiReceptorTransitions := by
  intro s b valid u fits started appended
  refine ⟨fun hl => exec_ascRxc_of_not_opened hl b valid, fun hl => ?_⟩
  rw [exec_ascRxc_of_opened hl]
  refine ⟨?_, fun hcolon hast => ?_, ?_, fun hcolon hcr hast => ?_, fun hcolon hcr hlf hast => ?_⟩
  · rintro rfl
    rw [show (0x3A : Byte) = colon from rfl, AscUnit.receive_colon]
    rfl
  · rw [AscUnit.receive_of_idle hast _ hcolon]
    rfl
  · rintro rfl (hast | hast)
    · rw [show (0x0D : Byte) = carriageReturn from rfl, AscUnit.receive_carriageReturn_of_append hast]
      rfl
    · rw [show (0x0D : Byte) = carriageReturn from rfl, AscUnit.receive_carriageReturn_of_eof hast]
      simp only [appended, AscUnit.app, State.setAsc, ← hast]
      rfl
  · rw [AscUnit.receive_of_append hast _ hcolon hcr]
    simp only [appended, AscUnit.app, State.setAsc, ← hast]
    rfl
  · rw [AscUnit.receive_other_of_eof hast _ hcolon hcr hlf]
    rfl

end Sys2Proof.Machine

/-! ### Units share nothing (20_memory.md R72, 60_exceptions.md R340) -/

namespace Sys2Proof.Machine

@[simp] theorem State.setRtu_setRtu (s : State) (u v : RtuUnit) : (s.setRtu u).setRtu v = s.setRtu v :=
  rfl

@[simp] theorem State.setAsc_setAsc (s : State) (u v : AscUnit) : (s.setAsc u).setAsc v = s.setAsc v :=
  rfl

/-- The outcome with another next state. -/
def mapNext (f : State → State) : Result → Result
  | .next s => .next (f s)
  | .fault r => .fault r
  | .refused r => .refused r

section
variable {i : Instr}

/-! An operation run on its own unit in any machine `s₀` with the same arguments does to that unit what it
does in `s`, and nothing to the rest of `s₀`. -/

theorem exec_setCrc (h : unitOf i = .crc) (s s₀ : State) :
    exec i (s₀.setCrc s.crc) = mapNext (fun t => s₀.setCrc t.crc) (exec i s) := by
  cases i <;> cases h <;> rfl

theorem exec_setLrc (h : unitOf i = .lrc) (s s₀ : State) :
    exec i (s₀.setLrc s.lrc) = mapNext (fun t => s₀.setLrc t.lrc) (exec i s) := by
  cases i <;> cases h <;> rfl

theorem exec_setRtu (h : unitOf i = .rtu) {s s₀ : State} (hp : s₀.params = s.params)
    (hl : s₀.layer = s.layer) :
    exec i (s₀.setRtu s.rtu) = mapNext (fun t => s₀.setRtu t.rtu) (exec i s) := by
  cases i with
  | rtuRxc b valid overrun =>
    by_cases hc : s.rtu.ch.life = .closed <;> simp [exec, execRtuRxc, hc, mapNext]
  | rtuT15 =>
    by_cases hc : s.rtu.t15Effective s.layer <;> simp [exec, execRtuT15, hl, hc, mapNext]
  | rtuT35 =>
    by_cases hc : s.rtu.t35Effective s.layer <;> simp [exec, execRtuT35, hp, hl, hc, mapNext]
  | rtuTxs t k address functionCode data =>
    by_cases hc : s.rtu.ch.outstanding t <;> simp [exec, execRtuTxs, hc, mapNext]
  | rtuWait t =>
    by_cases hc : s.rtu.ch.outstanding t <;> simp [exec, execRtuWait, hc, mapNext]
  | rtuTxd failed =>
    cases hc : s.rtu.ch.inFlight <;> simp [exec, execRtuTxd, hc, mapNext]
  | rtuStep =>
    cases hc : s.rtu.ready <;> simp [exec, execRtuStep, hc, mapNext]
  | rtuCls forcibly =>
    cases hc : s.rtu.ch.life <;> cases forcibly <;> simp [exec, execRtuCls, hc, mapNext]
  | rtuCxl t =>
    by_cases hc : s.rtu.ch.life = .closed
    · rw [exec_rtuCxl_of_closed hc, exec_rtuCxl_of_closed (by exact hc)]; rfl
    · rw [exec_rtuCxl_of_not_closed hc, exec_rtuCxl_of_not_closed (by exact hc)]; rfl
  | rtuCnr | rtuCnz | rtuStat => rfl
  | _ => cases h

theorem exec_setAsc (h : unitOf i = .asc) {s s₀ : State} (hp : s₀.params = s.params) :
    exec i (s₀.setAsc s.asc) = mapNext (fun t => s₀.setAsc t.asc) (exec i s) := by
  cases i with
  | ascRxc b valid =>
    by_cases hc : s.asc.ch.life = .opened <;> simp [exec, execAscRxc, hp, hc, mapNext]
  | ascTxs t k address functionCode data =>
    by_cases hc : s.asc.ch.outstanding t <;> simp [exec, execAscTxs, hc, mapNext]
  | ascWait t =>
    by_cases hc : s.asc.ch.outstanding t <;> simp [exec, execAscWait, hc, mapNext]
  | ascTxd failed =>
    cases hc : s.asc.ch.inFlight <;> simp [exec, execAscTxd, hc, mapNext]
  | ascStep =>
    cases hc : s.asc.ready with
    | none => simp [exec, execAscStep, hc, mapNext]
    | some slot =>
      cases hraw : asciiSend slot.frame <;> simp [exec, execAscStep, hc, hraw, mapNext]
  | ascCls forcibly =>
    cases hc : s.asc.ch.life <;> cases forcibly <;> simp [exec, execAscCls, hc, mapNext]
  | ascCxl t =>
    by_cases hc : s.asc.ch.life = .closed
    · rw [exec_ascCxl_of_closed hc, exec_ascCxl_of_closed (by exact hc)]; rfl
    · rw [exec_ascCxl_of_not_closed hc, exec_ascCxl_of_not_closed (by exact hc)]; rfl
  | ascStat => rfl
  | _ => cases h

/-- An operation that completes changes its own unit only (R72). -/
theorem eq_of_exec_next {s t : State} (h : exec i s = .next t) :
    t = match unitOf i with
      | .crc => s.setCrc t.crc
      | .lrc => s.setLrc t.lrc
      | .rtu => s.setRtu t.rtu
      | .asc => s.setAsc t.asc := by
  have hself {f : State → State} (hf : exec i s = mapNext f (exec i s)) : t = f t := by
    rw [h] at hf
    exact Host.Outcome.next.inj hf
  cases hi : unitOf i with
  | crc => exact hself (exec_setCrc hi s s)
  | lrc => exact hself (exec_setLrc hi s s)
  | rtu => exact hself (exec_setRtu hi rfl rfl)
  | asc => exact hself (exec_setAsc hi rfl)

/-- An operation changes no other unit, no word of the stream, no parameter and not the layer (R72). -/
theorem exec_frame {s t : State} (h : exec i s = .next t) :
    (unitOf i ≠ .crc → t.crc = s.crc) ∧ (unitOf i ≠ .lrc → t.lrc = s.lrc) ∧
    (unitOf i ≠ .rtu → t.rtu = s.rtu) ∧ (unitOf i ≠ .asc → t.asc = s.asc) ∧
    t.stream = s.stream ∧ t.params = s.params ∧ t.layer = s.layer := by
  have heq := eq_of_exec_next h
  cases hi : unitOf i <;> rw [hi] at heq <;> rw [heq] <;> simp

end

/-- Two outcomes say the same of a unit: the same next value of it, the same fault or the same refusal. -/
theorem agree_of_mapNext {α : Type} {i : Instr} {s s' : State} {f : State → State} {unit : State → α}
    (h : exec i s' = mapNext f (exec i s)) (hf : ∀ t, unit (f t) = unit t) :
    (∀ t, exec i s = .next t → ∃ t', exec i s' = .next t' ∧ unit t = unit t') ∧
    (∀ r, exec i s = .fault r → exec i s' = .fault r) ∧
    (∀ r, exec i s = .refused r → exec i s' = .refused r) := by
  refine ⟨fun t ht => ⟨f t, by rw [h, ht]; rfl, (hf t).symm⟩, fun r hr => by rw [h, hr]; rfl,
    fun r hr => by rw [h, hr]; rfl⟩

/-- Settles O54: an operation run on its own unit alone decides what it does, and writes nothing else. -/
theorem unitsShareNothing : Obligations.UnitsShareNothing := by
  refine ⟨fun s t i => exec_frame, fun s s' i hp hl hcrc hlrc hrtu hasc => ?_⟩
  cases hi : unitOf i with
  | crc =>
    have hrun := exec_setCrc hi s s'
    rw [hcrc hi] at hrun
    obtain ⟨hnext, hstop⟩ := agree_of_mapNext (unit := State.crc) hrun fun _ => rfl
    exact ⟨fun t ht => (hnext t ht).imp fun _ h => ⟨h.1, by simp [h.2]⟩, hstop⟩
  | lrc =>
    have hrun := exec_setLrc hi s s'
    rw [hlrc hi] at hrun
    obtain ⟨hnext, hstop⟩ := agree_of_mapNext (unit := State.lrc) hrun fun _ => rfl
    exact ⟨fun t ht => (hnext t ht).imp fun _ h => ⟨h.1, by simp [h.2]⟩, hstop⟩
  | rtu =>
    have hrun := exec_setRtu hi hp.symm hl.symm
    rw [hrtu hi] at hrun
    obtain ⟨hnext, hstop⟩ := agree_of_mapNext (unit := State.rtu) hrun fun _ => rfl
    exact ⟨fun t ht => (hnext t ht).imp fun _ h => ⟨h.1, by simp [h.2]⟩, hstop⟩
  | asc =>
    have hrun := exec_setAsc hi hp.symm
    rw [hasc hi] at hrun
    obtain ⟨hnext, hstop⟩ := agree_of_mapNext (unit := State.asc) hrun fun _ => rfl
    exact ⟨fun t ht => (hnext t ht).imp fun _ h => ⟨h.1, by simp [h.2]⟩, hstop⟩

end Sys2Proof.Machine

/-! ### What an operation can do to a transceiver (41_rtu_receiver.md, 42_ascii_receiver.md,
43_transceiver.md)

`RtuStep` and `AscStep` list, once, every way an operation that completes can leave a transceiver; what
holds of every operation is proved case by case over them. -/

namespace Sys2Proof.Machine

/-- The ways an operation that completes leaves the RTU transceiver `u`. -/
inductive RtuStep (p : Params) (l : Layer) (u : RtuUnit) : Instr → RtuUnit → Prop
  | inert (i : Instr) (hi : rtuSubmits i = none) : RtuStep p l u i u
  | receive (c : Character) (hl : u.ch.life ≠ .closed) :
    RtuStep p l u (.rtuRxc c.byte c.valid c.overrun) ((u.ackOverrun c).receive c)
  | endMain (h : u.t15Effective l = true) :
    RtuStep p l u .rtuT15 { u with arm15 := false, st := .ctrlwait }
  | silence (h : u.t35Effective l = true) : RtuStep p l u .rtuT35 (u.silence p)
  | submit {t : Tag} (ht : t ∉ u.ch.tags) (k : FrameKind) (a fc : Byte) (data : List Byte) :
    RtuStep p l u (.rtuTxs t k a fc data) (u.setCh (u.ch.submit .rtu t k a fc data))
  | wait {t : Tag} (ht : t ∉ u.ch.tags) : RtuStep p l u (.rtuWait t) (u.setCh (u.ch.addWaiter t))
  | start {slot : TxSlot} (h : u.ready = some slot) :
    RtuStep p l u .rtuStep
      { u with ch := u.ch.startWrite slot (rtuEncode slot.frame), st := .emission, eph := .tx }
  | finish {slot : TxSlot} (h : u.ch.inFlight = some slot) (failed : Bool) :
    RtuStep p l u (.rtuTxd failed) (u.setCh (u.ch.finishWrite slot failed)).endWrite
  | cancel (t : Tag) (hl : u.ch.life ≠ .closed) : RtuStep p l u (.rtuCxl t) (u.cancel t)
  | report (i : Instr) (hi : rtuSubmits i = none) (v : Nat) :
    RtuStep p l u i (u.setCh (u.ch.emit (.value v)))
  | zero (c : CounterSelect) : RtuStep p l u (.rtuCnz c) (u.zeroCounter c)
  | terminate (hl : u.ch.life ≠ .closed) : RtuStep p l u (.rtuCls true) u.terminate
  | beginClose (hl : u.ch.life = .opened) : RtuStep p l u (.rtuCls false) u.beginClose

/-- The ways an operation that completes leaves the ASCII transceiver `u`. -/
inductive AscStep (p : Params) (u : AscUnit) : Instr → AscUnit → Prop
  | inert (i : Instr) (hi : ascSubmits i = none) : AscStep p u i u
  | receive (b : Byte) (valid : Bool) (hl : u.ch.life = .opened) :
    AscStep p u (.ascRxc b valid) (u.receive p b valid)
  | submit {t : Tag} (ht : t ∉ u.ch.tags) (k : FrameKind) (a fc : Byte) (data : List Byte) :
    AscStep p u (.ascTxs t k a fc data) (u.setCh (u.ch.submit .ascii t k a fc data))
  | wait {t : Tag} (ht : t ∉ u.ch.tags) : AscStep p u (.ascWait t) (u.setCh (u.ch.addWaiter t))
  | start {slot : TxSlot} (h : u.ready = some slot) (raw : List Byte) :
    AscStep p u .ascStep (u.setCh (u.ch.startWrite slot raw))
  | finish {slot : TxSlot} (h : u.ch.inFlight = some slot) (failed : Bool) :
    AscStep p u (.ascTxd failed) (u.setCh (u.ch.finishWrite slot failed)).endWrite
  | cancel (t : Tag) (hl : u.ch.life ≠ .closed) : AscStep p u (.ascCxl t) (u.cancel t)
  | report (i : Instr) (hi : ascSubmits i = none) (v : Nat) :
    AscStep p u i (u.setCh (u.ch.emit (.value v)))
  | terminate (hl : u.ch.life ≠ .closed) : AscStep p u (.ascCls true) u.terminate
  | beginClose (hl : u.ch.life = .opened) : AscStep p u (.ascCls false) u.beginClose

theorem rtuSubmits_eq_none {i : Instr} (h : unitOf i ≠ .rtu) : rtuSubmits i = none := by
  cases i <;> simp_all [rtuSubmits, unitOf]

theorem ascSubmits_eq_none {i : Instr} (h : unitOf i ≠ .asc) : ascSubmits i = none := by
  cases i <;> simp_all [ascSubmits, unitOf]

/-- An operation that completes leaves the RTU transceiver in one of the ways of `RtuStep`. -/
theorem rtuStep_of_exec {i : Instr} {s t : State} (h : exec i s = .next t) :
    RtuStep s.params s.layer s.rtu i t.rtu := by
  by_cases hunit : unitOf i = .rtu
  case neg =>
    rw [(exec_frame h).2.2.1 hunit]
    exact .inert i (rtuSubmits_eq_none hunit)
  cases i with
  | rtuRxc b valid overrun =>
    simp only [exec, execRtuRxc] at h
    split at h <;> cases h
    · exact .inert _ rfl
    · rename_i hl
      exact .receive ⟨b, valid, overrun⟩ hl
  | rtuT15 =>
    simp only [exec, execRtuT15] at h
    split at h <;> cases h
    · rename_i heff
      exact .endMain heff
    · exact .inert _ rfl
  | rtuT35 =>
    simp only [exec, execRtuT35] at h
    split at h <;> cases h
    · rename_i heff
      exact .silence heff
    · exact .inert _ rfl
  | rtuTxs t k a fc data =>
    by_cases ht : t ∈ s.rtu.ch.tags
    · rw [exec_rtuTxs_of_used ht] at h; cases h
    · rw [exec_rtuTxs_of_unused ht rfl] at h; cases h
      exact .submit ht k a fc data
  | rtuWait t =>
    by_cases ht : t ∈ s.rtu.ch.tags
    · rw [exec_rtuWait_of_used ht] at h; cases h
    · rw [exec_rtuWait_of_unused ht] at h; cases h
      exact .wait ht
  | rtuStep =>
    cases hready : s.rtu.ready with
    | none => rw [exec_rtuStep_of_not_ready hready] at h; cases h; exact .inert _ rfl
    | some slot => rw [exec_rtuStep_of_ready hready] at h; cases h; exact .start hready
  | rtuTxd failed =>
    cases hslot : s.rtu.ch.inFlight with
    | none => rw [exec_rtuTxd_of_none hslot] at h; cases h; exact .inert _ rfl
    | some slot => rw [exec_rtuTxd_of_inFlight hslot] at h; cases h; exact .finish hslot failed
  | rtuCxl t =>
    by_cases hl : s.rtu.ch.life = .closed
    · rw [exec_rtuCxl_of_closed hl] at h; cases h; exact .inert _ rfl
    · rw [exec_rtuCxl_of_not_closed hl] at h; cases h; exact .cancel t hl
  | rtuCls forcibly =>
    simp only [exec, execRtuCls] at h
    split at h <;> cases h
    · exact .inert _ rfl
    · rename_i hl
      exact .terminate hl
    · exact .inert _ rfl
    · rename_i hl
      exact .beginClose hl
  | rtuCnr | rtuStat => cases h; exact .report _ rfl _
  | rtuCnz c => cases h; exact .zero c
  | _ => cases hunit

/-- An operation that completes leaves the ASCII transceiver in one of the ways of `AscStep`. -/
theorem ascStep_of_exec {i : Instr} {s t : State} (h : exec i s = .next t) :
    AscStep s.params s.asc i t.asc := by
  by_cases hunit : unitOf i = .asc
  case neg =>
    rw [(exec_frame h).2.2.2.1 hunit]
    exact .inert i (ascSubmits_eq_none hunit)
  cases i with
  | ascRxc b valid =>
    simp only [exec, execAscRxc] at h
    split at h <;> cases h
    · rename_i hl
      exact .receive b valid hl
    · exact .inert _ rfl
  | ascTxs t k a fc data =>
    by_cases ht : t ∈ s.asc.ch.tags
    · rw [exec_ascTxs_of_used ht] at h; cases h
    · rw [exec_ascTxs_of_unused ht rfl] at h; cases h
      exact .submit ht k a fc data
  | ascWait t =>
    by_cases ht : t ∈ s.asc.ch.tags
    · rw [exec_ascWait_of_used ht] at h; cases h
    · rw [exec_ascWait_of_unused ht] at h; cases h
      exact .wait ht
  | ascStep =>
    cases hready : s.asc.ready with
    | none => rw [exec_ascStep_of_not_ready hready] at h; cases h; exact .inert _ rfl
    | some slot =>
      cases hraw : asciiSend slot.frame with
      | none => rw [exec_ascStep_of_overflow hready hraw] at h; cases h
      | some raw => rw [exec_ascStep_of_sent hready hraw] at h; cases h; exact .start hready raw
  | ascTxd failed =>
    cases hslot : s.asc.ch.inFlight with
    | none => rw [exec_ascTxd_of_none hslot] at h; cases h; exact .inert _ rfl
    | some slot => rw [exec_ascTxd_of_inFlight hslot] at h; cases h; exact .finish hslot failed
  | ascCxl t =>
    by_cases hl : s.asc.ch.life = .closed
    · rw [exec_ascCxl_of_closed hl] at h; cases h; exact .inert _ rfl
    · rw [exec_ascCxl_of_not_closed hl] at h; cases h; exact .cancel t hl
  | ascCls forcibly =>
    simp only [exec, execAscCls] at h
    split at h <;> cases h
    · exact .inert _ rfl
    · rename_i hl
      exact .terminate hl
    · exact .inert _ rfl
    · rename_i hl
      exact .beginClose hl
  | ascStat => cases h; exact .report _ rfl _
  | _ => cases hunit

end Sys2Proof.Machine

/-! ### What an operation can do to a transmit side (43_transceiver.md, 60_exceptions.md R320, R321)

`Channel.Evolves` is the account of a change of a transmit side: the events it emits, and what they say of
the lifecycle, the port and the requests. Each named operation of section 1 to 4 has its account, and the
accounts of operations in sequence add up (`Channel.Evolves.trans`). -/

namespace Sys2Proof.Machine

/-- The tags of the requests that events complete, in order. -/
def completedTags (es : List Event) : List Tag :=
  es.filterMap fun
    | .result t _ => some t
    | _ => none

/-- The frames that events surface, in order. -/
def shownFrames (es : List Event) : List Frame :=
  es.filterMap fun
    | .frame f => some f
    | _ => none

/-- A change of a transmit side that takes the request `subs`, if any, surfaces the frames `shown` and emits
`events`. -/
structure Channel.Evolves (subs : Option Tag) (shown : List Frame) (events : List Event) (c c' : Channel) :
    Prop where
  /-- The trace only grows (10_state.md R48). -/
  out : c'.out = c.out ++ events
  /-- CLOSED is never left (R284). -/
  closed : c.life = .closed → c'.life = .closed
  /-- The port is disposed by the event that says so, and once (10_state.md R38, R285). -/
  disposes : events.count .portDispose + c.disposed.toNat = c'.disposed.toNat
  frames : shownFrames events = shown
  /-- Each request, outstanding before or taken now, is completed or still outstanding (R321). -/
  accounts : (subs.toList ++ c.tags).Nodup → (completedTags events ++ c'.tags).Perm (subs.toList ++ c.tags)

@[simp] theorem completedTags_nil : completedTags [] = [] := rfl

@[simp] theorem completedTags_append (es es' : List Event) :
    completedTags (es ++ es') = completedTags es ++ completedTags es' := List.filterMap_append

@[simp] theorem completedTags_results (ts : List Tag) (code : CompletionCode) :
    completedTags (ts.map (.result · code)) = ts := by
  simp [completedTags, List.filterMap_map]

@[simp] theorem shownFrames_append (es es' : List Event) :
    shownFrames (es ++ es') = shownFrames es ++ shownFrames es' := List.filterMap_append

@[simp] theorem shownFrames_results (ts : List Tag) (code : CompletionCode) :
    shownFrames (ts.map (.result · code)) = [] := by
  simp [shownFrames]

theorem mem_shownFrames {f : Frame} {es : List Event} : f ∈ shownFrames es ↔ .frame f ∈ es := by
  simp only [shownFrames, List.mem_filterMap]
  constructor
  · rintro ⟨e, he, hf⟩
    cases e <;> simp_all
  · exact fun h => ⟨_, h, rfl⟩

/-- Nothing changes. -/
theorem Channel.Evolves.refl (c : Channel) : c.Evolves none [] [] c where
  out := (List.append_nil _).symm
  closed := id
  disposes := Nat.zero_add _
  frames := rfl
  accounts := fun _ => List.Perm.refl _

/-- The accounts of two changes, of which the second takes no request, add up. -/
theorem Channel.Evolves.trans {subs : Option Tag} {shown shown' : List Frame} {es es' : List Event}
    {c₁ c₂ c₃ : Channel} (h : c₁.Evolves subs shown es c₂) (h' : c₂.Evolves none shown' es' c₃) :
    c₁.Evolves subs (shown ++ shown') (es ++ es') c₃ where
  out := by rw [h'.out, h.out, List.append_assoc]
  closed := h'.closed ∘ h.closed
  disposes := by
    have h1 := h.disposes
    have h2 := h'.disposes
    rw [List.count_append]
    omega
  frames := by rw [shownFrames_append, h.frames, h'.frames]
  accounts := fun hnodup => by
    have hfirst := h.accounts hnodup
    have hmid : c₂.tags.Nodup := (List.nodup_append.1 (hfirst.nodup_iff.2 hnodup)).2.1
    rw [completedTags_append, List.append_assoc]
    exact ((h'.accounts hmid).append_left _).trans hfirst

/-- A change that leaves the port as it is emits no disposal. -/
theorem Channel.Evolves.count_portDispose {subs : Option Tag} {shown : List Frame} {es : List Event}
    {c c' : Channel} (h : c.Evolves subs shown es c') (hdisposed : c'.disposed = c.disposed) :
    c'.out.count .portDispose = c.out.count .portDispose := by
  have hdisposes := h.disposes
  rw [hdisposed] at hdisposes
  rw [h.out, List.count_append]
  omega

/-- A change of the trace and of the requests only. -/
theorem Channel.Evolves.of_perm {subs : Option Tag} {shown : List Frame} {es : List Event}
    {c c' : Channel} (out : c'.out = c.out ++ es) (life : c'.life = c.life)
    (disposed : c'.disposed = c.disposed) (quiet : es.count .portDispose = 0)
    (frames : shownFrames es = shown)
    (accounts : (subs.toList ++ c.tags).Nodup → (completedTags es ++ c'.tags).Perm (subs.toList ++ c.tags)) :
    c.Evolves subs shown es c' where
  out := out
  closed := by rw [life]; exact id
  disposes := by rw [quiet, disposed, Nat.zero_add]
  frames := frames
  accounts := accounts

/-- An insertion into a set of submissions adds one. -/
theorem insertSubmission_perm (h : Submission) (l : List Submission) :
    (insertSubmission h l).Perm (h :: l) := by
  induction l with
  | nil => exact List.Perm.refl _
  | cons x xs ih =>
    simp only [insertSubmission]
    split
    · exact List.Perm.refl _
    · exact (ih.cons x).trans (List.Perm.swap ..)

/-- The insertion of a new tag into a set of tags adds one. -/
theorem insertTag_perm {t : Tag} {l : List Tag} (h : t ∉ l) : (insertTag t l).Perm (t :: l) := by
  induction l with
  | nil => exact List.Perm.refl _
  | cons x xs ih =>
    rw [List.mem_cons, not_or] at h
    obtain ⟨hx, hxs⟩ := h
    simp only [insertTag, hx, if_false]
    split
    · exact List.Perm.refl _
    · exact ((ih hxs).cons x).trans (List.Perm.swap ..)

/-! ### The account of each operation on a transmit side -/

namespace Channel

theorem evolves_emit_value (c : Channel) (v : Nat) : c.Evolves none [] [.value v] (c.emit (.value v)) :=
  .of_perm rfl rfl rfl rfl rfl fun _ => .refl _

theorem evolves_emit_frame (c : Channel) (f : Frame) : c.Evolves none [f] [.frame f] (c.emit (.frame f)) :=
  .of_perm rfl rfl rfl rfl rfl fun _ => .refl _

theorem evolves_emit_portOvrAck (c : Channel) : c.Evolves none [] [.portOvrAck] (c.emit .portOvrAck) :=
  .of_perm rfl rfl rfl rfl rfl fun _ => .refl _

theorem evolves_complete (c : Channel) (t : Tag) (code : CompletionCode) :
    c.Evolves (some t) [] [.result t code] (c.complete t code) :=
  .of_perm rfl rfl rfl (by simp) rfl fun _ => .refl _

/-- TXS, whatever it answers (R260). -/
theorem evolves_submit (c : Channel) (own : FrameKind) (t : Tag) (k : FrameKind) (a fc : Byte)
    (data : List Byte) : ∃ es, c.Evolves (some t) [] es (c.submit own t k a fc data) := by
  by_cases hlen : data.length ≤ 252
  case neg =>
    rw [submit_of_large (Nat.not_le.1 hlen)]
    exact ⟨_, c.evolves_complete t _⟩
  by_cases hl : c.life = .opened
  case neg =>
    rw [submit_of_not_opened hlen hl]
    exact ⟨_, c.evolves_complete t _⟩
  by_cases hk : k = own
  case neg =>
    rw [submit_of_other_kind hlen hl hk]
    exact ⟨_, c.evolves_complete t _⟩
  by_cases hslot : c.txreg = none
  · rw [submit_of_free_slot hlen hl hk hslot]
    refine ⟨[], .of_perm (List.append_nil _).symm rfl rfl rfl rfl fun _ => ?_⟩
    simp [tags, hslot]
  · rw [submit_of_taken_slot hlen hl hk hslot]
    refine ⟨[], .of_perm (List.append_nil _).symm rfl rfl rfl rfl fun _ => ?_⟩
    exact (((insertSubmission_perm _ c.hold).map _).append_right _).append_right _

/-- WAIT, in CLOSED and else (R287). -/
theorem evolves_addWaiter (c : Channel) {t : Tag} (ht : t ∉ c.tags) :
    ∃ es, c.Evolves (some t) [] es (c.addWaiter t) := by
  by_cases hl : c.life = .closed
  · rw [addWaiter_of_closed hl]
    exact ⟨_, c.evolves_complete t _⟩
  · rw [addWaiter_of_not_closed hl]
    refine ⟨[], .of_perm (List.append_nil _).symm rfl rfl rfl rfl fun _ => ?_⟩
    have hw : t ∉ c.waiters := fun hmem => ht (by simp [tags, hmem])
    exact ((insertTag_perm hw).append_left _).trans List.perm_middle

/-- The start of a write (R178, R269). -/
theorem evolves_startWrite {c : Channel} {slot : TxSlot} (hslot : c.txreg = some slot)
    (raw : List Byte) : c.Evolves none [] [.portTx raw] (c.startWrite slot raw) :=
  .of_perm rfl rfl rfl rfl rfl fun _ => by simp [tags, hslot, completedTags]

/-- The slot's request is completed and the slot freed: by a finished write, an aborted one or the
cancellation of an unstarted frame (R270, R271, R275). -/
theorem evolves_freeSlot {c c' : Channel} {slot : TxSlot} {es : List Event}
    (hslot : c.txreg = some slot) (out : c'.out = c.out ++ es) (life : c'.life = c.life)
    (disposed : c'.disposed = c.disposed) (hold : c'.hold = c.hold) (waiters : c'.waiters = c.waiters)
    (free : c'.txreg = none) (quiet : es.count .portDispose = 0) (frames : shownFrames es = [])
    (completed : completedTags es = [slot.tag]) : c.Evolves none [] es c' :=
  .of_perm out life disposed quiet frames fun _ => by
    simpa [tags, hslot, hold, waiters, free, completed] using List.perm_middle.symm

theorem evolves_finishWrite {c : Channel} {slot : TxSlot} (hslot : c.txreg = some slot)
    (failed : Bool) :
    c.Evolves none [] [.result slot.tag (writeCode failed)] (c.finishWrite slot failed) :=
  evolves_freeSlot hslot rfl rfl rfl rfl rfl rfl (by simp) rfl rfl

theorem evolves_abortWrite {c : Channel} {slot : TxSlot} (hslot : c.txreg = some slot)
    (own : FrameKind) (code : CompletionCode) :
    c.Evolves none [] [.portTxAbort, .result slot.tag code] (c.abortWrite own slot code) :=
  evolves_freeSlot hslot (by simp) rfl rfl rfl rfl rfl (by simp) rfl rfl

/-- REFILL moves a request from the set to the slot (R264). -/
theorem evolves_refill (c : Channel) (own : FrameKind) : c.Evolves none [] [] (c.refill own) := by
  rcases c.refill_cases own with ⟨heq, -⟩ | ⟨-, hslot, i, hi, heq⟩
  · rw [heq]
    exact .refl c
  · rw [heq]
    refine .of_perm (List.append_nil _).symm rfl rfl rfl rfl fun _ => ?_
    have hmove : (c.hold.eraseIdx i ++ [c.hold[i]]).Perm c.hold :=
      List.perm_append_comm.trans (List.getElem_cons_eraseIdx_perm hi)
    simpa [tags, hslot] using (hmove.map (·.tag)).append_right c.waiters

/-- A tag of a set with its other tags is the set. -/
theorem cons_filter_ne_perm {t : Tag} {l : List Tag} (hmem : t ∈ l) (hnodup : l.Nodup) :
    (t :: l.filter (· != t)).Perm l := by
  rw [← hnodup.erase_eq_filter]
  exact (List.perm_cons_erase hmem).symm

theorem evolves_cancelHeld {c : Channel} {t : Tag} (hheld : ∃ h ∈ c.hold, h.tag = t) :
    c.Evolves none [] [.result t .operationCancelled] (c.cancelHeld t) :=
  .of_perm rfl rfl rfl (by simp) rfl fun hnodup => by
    have hhold : (c.hold.map (·.tag)).Nodup :=
      (List.nodup_append.1 (List.nodup_append.1 (show c.tags.Nodup from hnodup)).1).1
    have hperm := cons_filter_ne_perm (List.mem_map.2 hheld) hhold
    rw [List.filter_map] at hperm
    exact (hperm.append_right _).append_right _

theorem evolves_cancelWaiter {c : Channel} {t : Tag} (hw : t ∈ c.waiters) :
    c.Evolves none [] [.result t .operationCancelled] (c.cancelWaiter t) :=
  .of_perm rfl rfl rfl (by simp) rfl fun hnodup => by
    have hwaiters : c.waiters.Nodup := (List.nodup_append.1 (show c.tags.Nodup from hnodup)).2.1
    have hperm := List.perm_middle.symm.trans ((cons_filter_ne_perm hw hwaiters).append_left
      (c.hold.map (·.tag) ++ c.txreg.toList.map (·.tag)))
    exact hperm

/-- The cancellation of an unstarted frame, and REFILL (R275). -/
theorem evolves_cancelUnstarted {c : Channel} {slot : TxSlot} (hslot : c.txreg = some slot)
    (own : FrameKind) :
    c.Evolves none [] [.result slot.tag .operationCancelled] (c.cancelUnstarted own slot.tag) := by
  have hfree : c.Evolves none [] [.result slot.tag .operationCancelled]
      ({ c with txreg := none }.complete slot.tag .operationCancelled) :=
    evolves_freeSlot hslot rfl rfl rfl rfl rfl rfl (by simp) rfl rfl
  exact hfree.trans (evolves_refill _ own)

/-- An OPEN unit begins to close (R280, R281). -/
theorem evolves_closing {c : Channel} (hl : c.life = .opened) :
    c.Evolves none [] [] { c with life := .closing } where
  out := (List.append_nil _).symm
  closed := fun hc => by simp [hl] at hc
  disposes := Nat.zero_add _
  frames := rfl
  accounts := fun _ => List.Perm.refl _

/-- FAIL_PENDING (R282). -/
theorem evolves_failPending (c : Channel) :
    c.Evolves none [] (c.pendingTags.map (.result · .invalidOperation)) c.failPending :=
  .of_perm rfl rfl rfl (count_results _ _) (shownFrames_results _ _) fun hnodup => by
    rw [completedTags_results, failPending_eq]
    replace hnodup : c.tags.Nodup := hnodup
    cases hslot : c.txreg with
    | none => simp [tags, pendingTags, hslot]
    | some slot =>
      cases hstarted : slot.started with
      | true => simp [tags, pendingTags, hslot, hstarted, Option.filter_some]
      | false =>
        have hnot : slot.tag ∉ c.hold.map (·.tag) := fun hmem =>
          (List.nodup_append.1 (List.nodup_append.1 hnodup).1).2.2 _ hmem slot.tag (by simp [hslot]) rfl
        have hperm := ((insertTag_perm hnot).trans
          (List.perm_append_comm (l₁ := [slot.tag]))).append_right c.waiters
        simpa [tags, pendingTags, hslot, hstarted, Option.filter_some] using hperm

/-- COMPLETE_CLOSE (R284). -/
theorem evolves_completeClose (c : Channel) :
    c.Evolves none []
      ((if c.disposed then [] else [.portDispose]) ++ c.waiters.map (.result · .ok))
      c.completeClose where
  out := by simp
  closed := fun _ => rfl
  disposes := by
    rw [List.count_append, count_results]
    cases hd : c.disposed <;> simp
  frames := by
    rw [shownFrames_append, shownFrames_results]
    cases c.disposed <;> rfl
  accounts := fun _ => by
    have hnone : completedTags (if c.disposed then [] else [.portDispose]) = [] := by
      cases c.disposed <;> rfl
    rw [completedTags_append, completedTags_results, hnone]
    have hperm : (c.waiters ++ (c.hold.map (·.tag) ++ c.txreg.toList.map (·.tag))).Perm c.tags :=
      List.perm_append_comm
    simpa [tags] using hperm

/-- TERMINATE up to its COMPLETE_CLOSE (R283). -/
theorem evolves_abandon (c : Channel) (own : FrameKind) :
    ∃ es, c.Evolves none [] es (c.abandon own) := by
  have hfail := c.evolves_failPending
  cases hslot : c.failPending.txreg with
  | none =>
    have heq : c.abandon own = c.failPending := by simp only [abandon, hslot]
    exact ⟨_, heq ▸ hfail⟩
  | some slot =>
    have heq : c.abandon own = c.failPending.abortWrite own slot .invalidOperation := by
      simp only [abandon, hslot]
    exact ⟨_, heq ▸ hfail.trans (evolves_abortWrite hslot own _)⟩

end Channel

end Sys2Proof.Machine

/-! ### What every operation does to the two transmit sides (60_exceptions.md R321, R330) -/

namespace Sys2Proof.Machine

/-- A change of a transmit side has an account, and it surfaces no frame but one that `validates`, alone. -/
def Channel.Accounted (subs : Option Tag) (validates : Frame → Prop) (c c' : Channel) : Prop :=
  ∃ shown es, c.Evolves subs shown es c' ∧
    (shown = [] ∨ ∃ f, es = [.frame f] ∧ validates f)

/-- A change that surfaces no frame. -/
theorem Channel.Evolves.quiet {subs : Option Tag} {es : List Event} {c c' : Channel}
    (h : c.Evolves subs [] es c') (validates : Frame → Prop) :
    c.Accounted subs validates c' :=
  ⟨[], es, h, .inl rfl⟩

/-- The frame a run ends in, and where (41_rtu_receiver.md R186). -/
def RtuUnit.Validates (u : RtuUnit) (i : Instr) (f : Frame) : Prop :=
  f.kind = .rtu ∧ u.ch.life = .opened ∧ i = .rtuT35 ∧ u.st = .ctrlwait ∧ u.nok = false ∧
    crc16 u.buf = 0

/-- The frame a delivery surfaces, and where (42_ascii_receiver.md R232). -/
def AscUnit.Validates (u : AscUnit) (i : Instr) (f : Frame) : Prop :=
  f.ValidFor .ascii ∧ u.ch.life = .opened ∧ u.ast = .eof ∧ u.anok = false ∧
    i = .ascRxc lineFeed true

/-- A character writes the run, the state and the timers, and nothing else (R173 to R179). -/
theorem RtuUnit.receive_frame (u : RtuUnit) (c : Character) :
    (u.receive c).cfg = u.cfg ∧ (u.receive c).ch = u.ch ∧ (u.receive c).cntMsg = u.cntMsg ∧
    (u.receive c).cntErr = u.cntErr ∧ (u.receive c).cntOvr = u.cntOvr ∧
    (u.receive c).now = u.now := by
  unfold RtuUnit.receive
  cases u.st <;> cases u.eph <;> exact ⟨rfl, rfl, rfl, rfl, rfl, rfl⟩

theorem RtuUnit.endWrite_ch (u : RtuUnit) :
    u.endWrite.ch = if u.ch.life = .closing then u.ch.completeClose else u.ch.refill .rtu := by
  unfold RtuUnit.endWrite
  split <;> rfl

theorem AscUnit.endWrite_ch (u : AscUnit) :
    u.endWrite.ch = if u.ch.life = .closing then u.ch.completeClose else u.ch.refill .ascii := by
  unfold AscUnit.endWrite
  split <;> rfl

/-- END_WRITE on a transmit side: COMPLETE_CLOSE while CLOSING, else REFILL (R270, R271). -/
theorem Channel.Evolves.endWrite {es : List Event} {c c' : Channel} (h : c.Evolves none [] es c')
    (own : FrameKind) :
    ∃ es', c.Evolves none [] es' (if c'.life = .closing then c'.completeClose else c'.refill own) := by
  split
  · exact ⟨_, h.trans c'.evolves_completeClose⟩
  · exact ⟨_, h.trans (c'.evolves_refill own)⟩

/-- A cancellation on the RTU transceiver, whatever the tag names (R275). -/
theorem RtuUnit.evolves_cancel (u : RtuUnit) (t : Tag) :
    ∃ es, u.ch.Evolves none [] es (u.cancel t).ch := by
  unfold RtuUnit.cancel
  cases htarget : u.ch.cancelTarget t with
  | held => exact ⟨_, Channel.evolves_cancelHeld (Channel.cancelTarget_eq_held_iff.1 htarget)⟩
  | unstarted slot =>
    obtain ⟨-, hslot, rfl, -⟩ := Channel.cancelTarget_eq_unstarted_iff.1 htarget
    exact ⟨_, Channel.evolves_cancelUnstarted hslot .rtu⟩
  | inFlight slot =>
    obtain ⟨-, hslot, -, -⟩ := Channel.cancelTarget_eq_inFlight_iff.1 htarget
    simp only [RtuUnit.endWrite_ch]
    exact (Channel.evolves_abortWrite hslot .rtu _).endWrite .rtu
  | waiter => exact ⟨_, Channel.evolves_cancelWaiter (Channel.cancelTarget_eq_waiter_iff.1 htarget).2.2⟩
  | nothing => exact ⟨_, .refl _⟩

/-- A cancellation on the ASCII transceiver, whatever the tag names (R275). -/
theorem AscUnit.evolves_cancel (u : AscUnit) (t : Tag) :
    ∃ es, u.ch.Evolves none [] es (u.cancel t).ch := by
  unfold AscUnit.cancel
  cases htarget : u.ch.cancelTarget t with
  | held => exact ⟨_, Channel.evolves_cancelHeld (Channel.cancelTarget_eq_held_iff.1 htarget)⟩
  | unstarted slot =>
    obtain ⟨-, hslot, rfl, -⟩ := Channel.cancelTarget_eq_unstarted_iff.1 htarget
    exact ⟨_, Channel.evolves_cancelUnstarted hslot .ascii⟩
  | inFlight slot =>
    obtain ⟨-, hslot, -, -⟩ := Channel.cancelTarget_eq_inFlight_iff.1 htarget
    simp only [AscUnit.endWrite_ch]
    exact (Channel.evolves_abortWrite hslot .ascii _).endWrite .ascii
  | waiter => exact ⟨_, Channel.evolves_cancelWaiter (Channel.cancelTarget_eq_waiter_iff.1 htarget).2.2⟩
  | nothing => exact ⟨_, .refl _⟩

/-- The 3.5 expiry: the frame of a clean run, a close, or no output (R182 to R186). -/
theorem RtuUnit.accounted_silence (u : RtuUnit) (p : Params) (hl : u.ch.life ≠ .closed) :
    u.ch.Accounted none (u.Validates .rtuT35) (u.silence p).ch := by
  cases hst : u.st with
  | ctrlwait =>
    rw [RtuUnit.silence_of_ctrlwait hst]
    let ended : RtuUnit := { u with arm35 := false }
    cases hlife : u.ch.life with
    | closed => exact absurd hlife hl
    | closing =>
      rw [RtuUnit.endRun_of_closing (u := ended) hlife]
      exact u.ch.evolves_completeClose.quiet _
    | opened =>
      rw [RtuUnit.endRun_of_opened (u := ended) hlife]
      by_cases hclean : runVerdict u.nok u.buf = .clean
      · obtain ⟨hnok, -, hcrc⟩ := runVerdict_eq_clean.1 hclean
        refine ⟨[rtuFields u.buf], [.frame (rtuFields u.buf)], ?_,
          .inr ⟨_, rfl, rfl, hlife, rfl, hst, hnok, hcrc⟩⟩
        simp only [ended, hclean, if_true]
        exact u.ch.evolves_emit_frame (rtuFields u.buf)
      · simp only [ended, hclean, if_false, Channel.emitAll_nil]
        exact (Channel.Evolves.refl u.ch).quiet _
  | init | idle | emission | reception =>
    simp only [RtuUnit.silence, hst]
    exact (Channel.Evolves.refl u.ch).quiet _

/-- Every operation's account of the RTU transceiver's transmit side. -/
theorem RtuStep.accounted {p : Params} {l : Layer} {u u' : RtuUnit} {i : Instr}
    (h : RtuStep p l u i u') : u.ch.Accounted (rtuSubmits i) (u.Validates i) u'.ch := by
  cases h with
  | inert i hi => exact hi ▸ (Channel.Evolves.refl u.ch).quiet _
  | report i hi v => exact hi ▸ (u.ch.evolves_emit_value v).quiet _
  | receive c hl =>
    rw [(RtuUnit.receive_frame _ c).2.1, RtuUnit.ackOverrun]
    split
    · exact u.ch.evolves_emit_portOvrAck.quiet _
    · exact (Channel.Evolves.refl u.ch).quiet _
  | endMain => exact (Channel.Evolves.refl u.ch).quiet _
  | silence heff => exact u.accounted_silence p ((RtuUnit.t35Effective_iff _ _).1 heff).1
  | submit ht k a fc data =>
    obtain ⟨es, hes⟩ := u.ch.evolves_submit .rtu _ k a fc data
    exact hes.quiet _
  | wait ht =>
    obtain ⟨es, hes⟩ := u.ch.evolves_addWaiter ht
    exact hes.quiet _
  | start hready =>
    obtain ⟨-, -, hslot, -⟩ := (RtuUnit.ready_eq_some_iff _ _).1 hready
    exact (Channel.evolves_startWrite hslot _).quiet _
  | finish hslot failed =>
    obtain ⟨-, hslot, -⟩ := (Channel.inFlight_eq_some_iff _ _).1 hslot
    obtain ⟨es, hes⟩ := (Channel.evolves_finishWrite hslot failed).endWrite .rtu
    rw [RtuUnit.endWrite_ch]
    exact hes.quiet _
  | cancel t hl =>
    obtain ⟨es, hes⟩ := u.evolves_cancel t
    exact hes.quiet _
  | zero c => cases c <;> exact (Channel.Evolves.refl u.ch).quiet _
  | terminate hl =>
    obtain ⟨es, hes⟩ := u.ch.evolves_abandon .rtu
    exact (hes.trans (Channel.evolves_completeClose _)).quiet _
  | beginClose hl =>
    have hdrain := (Channel.evolves_closing hl).trans (Channel.evolves_failPending _)
    unfold RtuUnit.beginClose
    dsimp only
    split
    · exact (hdrain.trans (Channel.evolves_completeClose _)).quiet _
    · exact hdrain.quiet _

/-- A delivery surfaces the frame the buffer decodes to, and it is one that the LF validates (R232). -/
theorem AscUnit.accounted_deliver {u : AscUnit} (hlife : u.ch.life = .opened) (hast : u.ast = .eof)
    (p : Params) (valid : Bool) :
    u.ch.Accounted none (u.Validates (.ascRxc lineFeed valid)) (u.deliver p valid).ch := by
  rw [AscUnit.deliver_of_opened hlife]
  cases hdecode : asciiDecode p (u.app p lineFeed valid).abuf (u.app p lineFeed valid).anok with
  | error => simpa only [surfaced, Channel.emitAll_nil] using (Channel.Evolves.refl u.ch).quiet _
  | ok f =>
    obtain ⟨hnok, d, -, hframe⟩ := asciiDecode_eq_ok hdecode
    obtain ⟨hvalid, -⟩ := eq_asciiBytes_of_asciiFrame hframe
    simp only [AscUnit.app, Bool.or_eq_false_iff, Bool.not_eq_false'] at hnok
    obtain ⟨⟨hanok, -⟩, rfl⟩ := hnok
    exact ⟨[f], [.frame f], u.ch.evolves_emit_frame f, .inr ⟨f, rfl, hvalid, hlife, hast, hanok, rfl⟩⟩

/-- A character of the ASCII receptor emits nothing but at the LF that ends a frame (R223 to R230). -/
theorem AscUnit.accounted_receive {u : AscUnit} (hlife : u.ch.life = .opened) (p : Params) (b : Byte)
    (valid : Bool) :
    u.ch.Accounted none (u.Validates (.ascRxc b valid)) (u.receive p b valid).ch := by
  have hquiet {u' : AscUnit} (h : u'.ch = u.ch) :
      u.ch.Accounted none (u.Validates (.ascRxc b valid)) u'.ch :=
    h.symm ▸ (Channel.Evolves.refl u.ch).quiet _
  unfold AscUnit.receive
  cases hast : u.ast with
  | idle => dsimp only; split <;> exact hquiet rfl
  | append => dsimp only; split_ifs <;> exact hquiet rfl
  | eof =>
    dsimp only
    split_ifs with hcolon hlf hcr
    · exact hquiet rfl
    · exact hlf ▸ AscUnit.accounted_deliver hlife hast p valid
    · exact hquiet rfl
    · exact hquiet rfl

/-- Every operation's account of the ASCII transceiver's transmit side. -/
theorem AscStep.accounted {p : Params} {u u' : AscUnit} {i : Instr} (h : AscStep p u i u') :
    u.ch.Accounted (ascSubmits i) (u.Validates i) u'.ch := by
  cases h with
  | inert i hi => exact hi ▸ (Channel.Evolves.refl u.ch).quiet _
  | report i hi v => exact hi ▸ (u.ch.evolves_emit_value v).quiet _
  | receive b valid hl => exact AscUnit.accounted_receive hl p b valid
  | submit ht k a fc data =>
    obtain ⟨es, hes⟩ := u.ch.evolves_submit .ascii _ k a fc data
    exact hes.quiet _
  | wait ht =>
    obtain ⟨es, hes⟩ := u.ch.evolves_addWaiter ht
    exact hes.quiet _
  | start hready raw =>
    obtain ⟨-, hslot, -⟩ := (AscUnit.ready_eq_some_iff _ _).1 hready
    exact (Channel.evolves_startWrite hslot _).quiet _
  | finish hslot failed =>
    obtain ⟨-, hslot, -⟩ := (Channel.inFlight_eq_some_iff _ _).1 hslot
    obtain ⟨es, hes⟩ := (Channel.evolves_finishWrite hslot failed).endWrite .ascii
    rw [AscUnit.endWrite_ch]
    exact hes.quiet _
  | cancel t hl =>
    obtain ⟨es, hes⟩ := u.evolves_cancel t
    exact hes.quiet _
  | terminate hl =>
    obtain ⟨es, hes⟩ := u.ch.evolves_abandon .ascii
    exact (hes.trans (Channel.evolves_completeClose _)).quiet _
  | beginClose hl =>
    have hdrain := (Channel.evolves_closing hl).trans (Channel.evolves_failPending _)
    unfold AscUnit.beginClose
    dsimp only
    split
    · exact (hdrain.trans (Channel.evolves_completeClose _)).quiet _
    · exact hdrain.quiet _

end Sys2Proof.Machine

/-! ### Whole-machine rules that follow from the accounts (60_exceptions.md R320, R321, R330,
43_transceiver.md R284, R285) -/

namespace Sys2Proof.Machine

section
variable {i : Instr} {s t : State}

theorem rtu_accounted (h : exec i s = .next t) :
    s.rtu.ch.Accounted (rtuSubmits i) (s.rtu.Validates i) t.rtu.ch := (rtuStep_of_exec h).accounted

theorem asc_accounted (h : exec i s = .next t) :
    s.asc.ch.Accounted (ascSubmits i) (s.asc.Validates i) t.asc.ch := (ascStep_of_exec h).accounted

end

section
variable {subs : Option Tag} {validates : Frame → Prop} {c c' : Channel}

theorem Channel.Accounted.closed (h : c.Accounted subs validates c') (hl : c.life = .closed) :
    c'.life = .closed := by
  obtain ⟨shown, es, hes, -⟩ := h
  exact hes.closed hl

theorem Channel.Accounted.out_grows (h : c.Accounted subs validates c') : c.out <+: c'.out := by
  obtain ⟨shown, es, hes, -⟩ := h
  exact ⟨es, hes.out.symm⟩

/-- The port's disposals are those of the trace, and a disposed port stays so (R285). -/
theorem Channel.Accounted.disposes (h : c.Accounted subs validates c') :
    c'.out.count .portDispose + c.disposed.toNat = c.out.count .portDispose + c'.disposed.toNat := by
  obtain ⟨shown, es, hes, -⟩ := h
  rw [hes.out, List.count_append, ← hes.disposes, Nat.add_assoc]

/-- A frame among the events of an operation is one that it validates, and the only event (R330). -/
theorem Channel.Accounted.frame (h : c.Accounted subs validates c') {events : List Event} {f : Frame}
    (hout : c'.out = c.out ++ events) (hf : .frame f ∈ events) :
    events = [.frame f] ∧ validates f := by
  obtain ⟨shown, es, hes, hquiet⟩ := h
  obtain rfl : es = events := List.append_cancel_left (hes.out.symm.trans hout)
  have hshown : f ∈ shown := hes.frames ▸ mem_shownFrames.2 hf
  rcases hquiet with rfl | ⟨g, rfl, hg⟩
  · cases hshown
  · obtain rfl : f = g := by simpa using hf
    exact ⟨rfl, hg⟩

/-- Completions are counted by the tags they complete. -/
theorem completions_eq_count (x : Tag) (es : List Event) :
    completions x es = (completedTags es).count x := by
  induction es with
  | nil => rfl
  | cons e es ih =>
    rw [completions] at ih ⊢
    cases e <;> simp [completedTags, Event.completes, List.countP_cons, List.count_cons] at ih ⊢ <;>
      exact ih

/-- Where no two requests share a tag, each is completed once or still outstanding, and never both
(R321). -/
theorem Channel.Accounted.completes (h : c.Accounted subs validates c') (hnodup : c.tags.Nodup)
    (hfresh : ∀ x, subs = some x → x ∉ c.tags) :
    ∃ events, c'.out = c.out ++ events ∧ ∀ x : Tag,
      completions x events ≤ 1 ∧
      (completions x events = 1 → (x ∈ c.tags ∨ subs = some x) ∧ x ∉ c'.tags) ∧
      (completions x events = 0 → (x ∈ c'.tags ↔ x ∈ c.tags ∨ subs = some x)) := by
  obtain ⟨shown, es, hes, -⟩ := h
  have hall : (subs.toList ++ c.tags).Nodup := by
    cases subs with
    | none => exact hnodup
    | some t => exact List.nodup_cons.2 ⟨hfresh t rfl, hnodup⟩
  refine ⟨es, hes.out, fun x => ?_⟩
  have hmem : x ∈ subs.toList ++ c.tags ↔ x ∈ c.tags ∨ subs = some x := by
    simp [or_comm]
  have hcount := (hes.accounts hall).count_eq x
  have hone := List.nodup_iff_count_le_one.1 hall x
  rw [List.count_append] at hcount
  rw [completions_eq_count, ← hmem, ← List.count_pos_iff, ← List.count_pos_iff]
  omega

end

/-- Settles O53: each engine emits at the end of its trace, and so do the accounts of the transceivers. -/
theorem tracesOnlyGrow : Obligations.TracesOnlyGrow := by
  intro s t i h
  refine ⟨?_, ?_, (rtu_accounted h).out_grows, (asc_accounted h).out_grows⟩
  · by_cases hunit : unitOf i = .crc
    · cases i <;> cases hunit <;> cases h <;> simp
    · rw [(exec_frame h).1 hunit]
  · by_cases hunit : unitOf i = .lrc
    · cases i <;> cases hunit <;> cases h <;> simp
    · rw [(exec_frame h).2.1 hunit]

/-- Settles O48: the account of the port, by whether it was disposed. -/
theorem portIsDisposedAtMostOnce : Obligations.PortIsDisposedAtMostOnce := by
  intro s t i h c c' hunits
  have hdisposes : c'.out.count .portDispose + c.disposed.toNat =
      c.out.count .portDispose + c'.disposed.toNat := by
    rcases hunits with ⟨rfl, rfl⟩ | ⟨rfl, rfl⟩
    · exact (rtu_accounted h).disposes
    · exact (asc_accounted h).disposes
  have hgrows : c.out.count .portDispose ≤ c'.out.count .portDispose := by
    rcases hunits with ⟨rfl, rfl⟩ | ⟨rfl, rfl⟩
    · exact (rtu_accounted h).out_grows.sublist.count_le _
    · exact (asc_accounted h).out_grows.sublist.count_le _
  constructor
  · intro hd
    cases hd' : c'.disposed <;> simp only [hd, hd', Bool.toNat_true, Bool.toNat_false] at hdisposes
    · omega
    · exact ⟨rfl, by omega⟩
  · intro hd
    simpa only [hd, Bool.toNat_false, Nat.add_zero] using hdisposes

/-- Settles O52: the one frame that an account surfaces is one that the operation validates. -/
theorem framesOnlyFromTheValidatingOperation : Obligations.FramesOnlyFromTheValidatingOperation := by
  refine fun s t i h => ⟨fun events f hout hf => ?_, fun events f hout hf => ?_⟩
  · obtain ⟨heq, hvalid⟩ := (rtu_accounted h).frame hout hf
    exact ⟨heq, hvalid⟩
  · obtain ⟨heq, hvalid⟩ := (asc_accounted h).frame hout hf
    exact ⟨heq, hvalid⟩

/-- A request that is taken has a tag of its own (30_encoding.md R95). -/
theorem RtuStep.fresh {p : Params} {l : Layer} {u u' : RtuUnit} {i : Instr} (h : RtuStep p l u i u')
    {x : Tag} (hx : rtuSubmits i = some x) : x ∉ u.ch.tags := by
  cases h with
  | submit ht => cases hx; exact ht
  | wait ht => cases hx; exact ht
  | inert i hi | report i hi => simp [hi] at hx
  | _ => cases hx

@[inherit_doc RtuStep.fresh]
theorem AscStep.fresh {p : Params} {u u' : AscUnit} {i : Instr} (h : AscStep p u i u')
    {x : Tag} (hx : ascSubmits i = some x) : x ∉ u.ch.tags := by
  cases h with
  | submit ht => cases hx; exact ht
  | wait ht => cases hx; exact ht
  | inert i hi | report i hi => simp [hi] at hx
  | _ => cases hx

/-- Settles O56: the account of the requests, whose tags differ by the invariant. -/
theorem requestsCompleteExactlyOnce : Obligations.RequestsCompleteExactlyOnce := by
  intro s t i hinv h c c' submits hunits
  rcases hunits with ⟨rfl, rfl, rfl⟩ | ⟨rfl, rfl, rfl⟩
  · exact (rtu_accounted h).completes hinv.rtu.channel.tagsDistinct fun _ hx =>
      (rtuStep_of_exec h).fresh hx
  · exact (asc_accounted h).completes hinv.asc.channel.tagsDistinct fun _ hx =>
      (ascStep_of_exec h).fresh hx

/-- Settles O47: CLOSED by the accounts, and each inert input by its own rule. -/
theorem closedIsFinal : Obligations.ClosedIsFinal := by
  refine ⟨fun s t i h => ⟨(rtu_accounted h).closed, (asc_accounted h).closed⟩,
    fun s b valid overrun x tag hl i hi => ?_, fun s b valid x tag hl i hi => ?_⟩
  · simp only [List.mem_cons, List.not_mem_nil, or_false] at hi
    rcases hi with rfl | rfl | rfl | rfl | rfl | rfl | rfl
    · exact exec_rtuRxc_of_closed hl b valid overrun
    · exact (shortTimerEndsTheMainBytes s).1 (.inl hl)
    · exact (longTimerEndsASilenceWait s).1 (.inl hl)
    · exact (rtuWriteCompletion s x).1 (.inl hl)
    · exact exec_rtuCxl_of_closed hl
    · exact exec_rtuCls_of_closed hl x
    · exact (rtuStepStartsTheWrite s).2 (.inl (by simp [hl]))
  · simp only [List.mem_cons, List.not_mem_nil, or_false] at hi
    rcases hi with rfl | rfl | rfl | rfl | rfl
    · exact exec_ascRxc_of_not_opened (by simp [hl]) b valid
    · exact (ascWriteCompletion s x).1 (.inl hl)
    · exact exec_ascCxl_of_closed hl
    · exact exec_ascCls_of_closed hl x
    · exact (ascStepStartsTheWrite s).2 (.inl (by simp [hl]))

end Sys2Proof.Machine

/-! ### What no operation writes, and the counters (10_state.md R24, R37, R39, 43_transceiver.md R292) -/

namespace Sys2Proof.Machine

/-- The configuration, the clock and the counters are the same. -/
structure RtuUnit.Keeps (u u' : RtuUnit) : Prop where
  cfg : u'.cfg = u.cfg
  now : u'.now = u.now
  cntMsg : u'.cntMsg = u.cntMsg
  cntErr : u'.cntErr = u.cntErr
  cntOvr : u'.cntOvr = u.cntOvr

theorem RtuUnit.keeps_endWrite (u : RtuUnit) (c : Channel) : u.Keeps (u.setCh c).endWrite := by
  unfold RtuUnit.endWrite
  split <;> exact ⟨rfl, rfl, rfl, rfl, rfl⟩

theorem RtuUnit.keeps_cancel (u : RtuUnit) (t : Tag) : u.Keeps (u.cancel t) := by
  unfold RtuUnit.cancel
  cases u.ch.cancelTarget t with
  | inFlight slot => exact u.keeps_endWrite _
  | _ => exact ⟨rfl, rfl, rfl, rfl, rfl⟩

theorem RtuUnit.keeps_beginClose (u : RtuUnit) : u.Keeps u.beginClose := by
  unfold RtuUnit.beginClose
  dsimp only
  split <;> exact ⟨rfl, rfl, rfl, rfl, rfl⟩

theorem RtuUnit.keeps_receive (u : RtuUnit) (c : Character) : u.Keeps ((u.ackOverrun c).receive c) := by
  obtain ⟨hcfg, -, hmsg, herr, hovr, hnow⟩ := (u.ackOverrun c).receive_frame c
  rw [RtuUnit.ackOverrun_eq] at *
  exact ⟨hcfg, hnow, hmsg, herr, hovr⟩

/-- The end of a run counts it, and writes neither the configuration nor the clock (R183, R185). -/
theorem RtuUnit.endRun_frame (u : RtuUnit) (p : Params) :
    (u.endRun p).cfg = u.cfg ∧ (u.endRun p).now = u.now ∧
    (u.endRun p).cntMsg = (u.countRun p).cntMsg ∧ (u.endRun p).cntErr = (u.countRun p).cntErr ∧
    (u.endRun p).cntOvr = (u.countRun p).cntOvr := by
  have hcfg : (u.countRun p).cfg = u.cfg := by rw [RtuUnit.countRun_eq]
  have hnow : (u.countRun p).now = u.now := by rw [RtuUnit.countRun_eq]
  unfold RtuUnit.endRun RtuUnit.finalize
  dsimp only
  split <;> exact ⟨hcfg, hnow, rfl, rfl, rfl⟩

/-- A 3.5 expiry that ends no run (R182, R184). -/
theorem RtuUnit.keeps_silence (u : RtuUnit) (p : Params) (hst : u.st ≠ .ctrlwait) :
    u.Keeps (u.silence p) := by
  unfold RtuUnit.silence
  cases h : u.st with
  | ctrlwait => exact absurd h hst
  | _ => exact ⟨rfl, rfl, rfl, rfl, rfl⟩

/-- An operation keeps the configuration, the clock and the counters, unless it ends a run, which counts it,
or zeroes a counter (R183, R291). -/
theorem RtuStep.keeps {p : Params} {l : Layer} {u u' : RtuUnit} {i : Instr} (h : RtuStep p l u i u') :
    u.Keeps u' ∨
    (i = .rtuT35 ∧ u.st = .ctrlwait ∧ u' = ({ u with arm35 := false } : RtuUnit).endRun p) ∨
    ∃ c, i = .rtuCnz c ∧ u' = u.zeroCounter c := by
  cases h with
  | silence heff =>
    by_cases hst : u.st = .ctrlwait
    · exact .inr (.inl ⟨rfl, hst, RtuUnit.silence_of_ctrlwait hst p⟩)
    · exact .inl (u.keeps_silence p hst)
  | zero c => exact .inr (.inr ⟨c, rfl, rfl⟩)
  | receive c => exact .inl (u.keeps_receive c)
  | finish hslot failed => exact .inl (u.keeps_endWrite _)
  | cancel t => exact .inl (u.keeps_cancel t)
  | beginClose => exact .inl u.keeps_beginClose
  | _ => exact .inl ⟨rfl, rfl, rfl, rfl, rfl⟩

theorem RtuUnit.zeroCounter_frame (u : RtuUnit) (c : CounterSelect) :
    (u.zeroCounter c).cfg = u.cfg ∧ (u.zeroCounter c).now = u.now := by
  cases c <;> exact ⟨rfl, rfl⟩

/-- No operation writes the configuration of the RTU transceiver or its clock (10_state.md R24). -/
theorem RtuStep.frame {p : Params} {l : Layer} {u u' : RtuUnit} {i : Instr} (h : RtuStep p l u i u') :
    u'.cfg = u.cfg ∧ u'.now = u.now := by
  rcases h.keeps with hkeeps | ⟨-, -, rfl⟩ | ⟨c, -, rfl⟩
  · exact ⟨hkeeps.cfg, hkeeps.now⟩
  · obtain ⟨hcfg, hnow, -⟩ := RtuUnit.endRun_frame { u with arm35 := false } p
    exact ⟨hcfg, hnow⟩
  · exact u.zeroCounter_frame c

theorem AscUnit.endWrite_cfg (u : AscUnit) : u.endWrite.cfg = u.cfg := by
  unfold AscUnit.endWrite
  split <;> rfl

theorem AscUnit.cancel_cfg (u : AscUnit) (t : Tag) : (u.cancel t).cfg = u.cfg := by
  unfold AscUnit.cancel
  cases u.ch.cancelTarget t with
  | inFlight slot => exact AscUnit.endWrite_cfg (u.setCh _)
  | _ => rfl

theorem AscUnit.beginClose_cfg (u : AscUnit) : u.beginClose.cfg = u.cfg := by
  unfold AscUnit.beginClose
  dsimp only
  split <;> rfl

theorem AscUnit.receive_cfg {u : AscUnit} (hl : u.ch.life = .opened) (p : Params) (b : Byte)
    (valid : Bool) : (u.receive p b valid).cfg = u.cfg := by
  unfold AscUnit.receive
  cases u.ast with
  | idle => dsimp only; split <;> rfl
  | append => dsimp only; split_ifs <;> rfl
  | eof =>
    rw [AscUnit.deliver_of_opened hl]
    dsimp only
    split_ifs <;> rfl

/-- No operation writes the configuration of the ASCII transceiver (10_state.md R39). -/
theorem AscStep.cfg {p : Params} {u u' : AscUnit} {i : Instr} (h : AscStep p u i u') :
    u'.cfg = u.cfg := by
  cases h with
  | receive b valid hl => exact AscUnit.receive_cfg hl p b valid
  | finish hslot failed => exact AscUnit.endWrite_cfg (u.setCh _)
  | cancel t => exact u.cancel_cfg t
  | beginClose => exact u.beginClose_cfg
  | _ => rfl

/-- A step that completes waits, or executes an operation that no stream check refuses (R71, R328). -/
theorem step_next_cases {s t : State} (h : step s = .next t) :
    t = s ∨ ∃ i τ n, streamRefusal i τ s = none ∧ exec i ((s.keepLast n).clocked i τ) = .next t := by
  simp only [step, stepOnce] at h
  split at h
  · cases h; exact .inl rfl
  · cases h
  · rename_i i τ n _
    split at h
    · cases h
    · rename_i hrefusal
      exact .inr ⟨i, τ, n, hrefusal, h⟩

/-- Settles O55: what an operation writes of its own unit is not its configuration. -/
theorem configurationIsNeverWritten : Obligations.ConfigurationIsNeverWritten := by
  intro s t h
  rcases step_next_cases h with rfl | ⟨i, τ, n, -, hexec⟩
  · exact ⟨rfl, rfl, rfl, rfl⟩
  · have hrtu := (rtuStep_of_exec hexec).frame.1
    have hclock : ((s.keepLast n).clocked i τ).rtu.cfg = s.rtu.cfg := by
      rw [State.clocked_rtu]
      split <;> rfl
    obtain ⟨-, -, -, -, -, hparams, hlayer⟩ := exec_frame hexec
    exact ⟨hrtu.trans hclock, (ascStep_of_exec hexec).cfg.trans (by simp), hparams.trans (by simp),
      hlayer.trans (by simp)⟩

/-- Settles O51: an operation keeps the counters, or it zeroes one, or it ends a run and counts it by its
verdict. -/
theorem countersMoveOnlyAtFinalization : Obligations.CountersMoveOnlyAtFinalization := by
  intro s t i h u sat clean ends
  have hclean : runVerdict u.nok u.buf = .clean ↔ clean := runVerdict_eq_clean
  rcases (rtuStep_of_exec h).keeps with hkeeps | ⟨rfl, hst, heq⟩ | ⟨c, rfl, heq⟩
  · exact ⟨.inl hkeeps.cntMsg, .inl hkeeps.cntErr, .inl hkeeps.cntOvr⟩
  · obtain ⟨-, -, hmsg, herr, hovr⟩ := RtuUnit.endRun_frame { u with arm35 := false } s.params
    rw [← heq] at hmsg herr hovr
    rw [RtuUnit.countRun_cntMsg] at hmsg
    rw [RtuUnit.countRun_cntErr] at herr
    rw [RtuUnit.countRun_cntOvr] at hovr
    refine ⟨?_, ?_, ?_⟩
    · by_cases hc : clean
      · exact .inr (.inr ⟨⟨rfl, hst⟩, hc, hmsg.trans (if_pos (hclean.2 hc))⟩)
      · exact .inl (hmsg.trans (if_neg (hc ∘ hclean.1)))
    · by_cases hc : clean
      · exact .inl (herr.trans (if_pos (hclean.2 hc)))
      · exact .inr (.inr ⟨⟨rfl, hst⟩, hc, herr.trans (if_neg (hc ∘ hclean.1))⟩)
    · split at hovr
      · rename_i hcounts
        obtain ⟨hnok, hcounts⟩ := hcounts
        rw [runVerdict_eq_nok] at hnok
        refine .inr (.inr ⟨⟨rfl, hst⟩, fun hc => by simp [hc.1] at hnok, ?_, hovr⟩)
        simp only [countsAsOverrun, Bool.or_eq_true, Bool.and_eq_true] at hcounts
        exact hcounts.imp id And.right
      · exact .inl hovr
  · rw [heq]
    cases c with
    | msg => exact ⟨.inr (.inl ⟨rfl, rfl⟩), .inl rfl, .inl rfl⟩
    | err => exact ⟨.inl rfl, .inr (.inl ⟨rfl, rfl⟩), .inl rfl⟩
    | ovr => exact ⟨.inl rfl, .inl rfl, .inr (.inl ⟨rfl, rfl⟩)⟩

end Sys2Proof.Machine

/-! ### The invariant of the transmit sides (10_state.md R45, R46) -/

namespace Sys2Proof.Machine

namespace Channel

@[simp] theorem refill_life (c : Channel) (own : FrameKind) : (c.refill own).life = c.life := by
  rcases c.refill_cases own with ⟨heq, -⟩ | ⟨-, -, i, hi, heq⟩ <;> rw [heq]

/-- REFILL puts an unstarted frame into the slot, if any (R264). -/
@[simp] theorem refill_writing (c : Channel) (own : FrameKind) :
    (c.refill own).writing = c.writing := by
  rcases c.refill_cases own with ⟨heq, -⟩ | ⟨-, hslot, i, hi, heq⟩ <;> rw [heq]
  simp [writing, hslot]

theorem writing_of_free {c : Channel} (h : c.txreg = none) : c.writing = false := by
  simp [writing, h]

/-- A submission writes the slot, the set or the trace, and starts no write (R260). -/
theorem submit_frame (c : Channel) (own : FrameKind) (t : Tag) (k : FrameKind) (a fc : Byte)
    (data : List Byte) :
    (c.submit own t k a fc data).life = c.life ∧
      (c.submit own t k a fc data).writing = c.writing := by
  by_cases hlen : data.length ≤ 252
  · rw [submit_of_fits hlen]
    split_ifs with hl hk hslot
    · exact ⟨rfl, rfl⟩
    · exact ⟨rfl, rfl⟩
    · exact ⟨rfl, by simp [writing, hslot]⟩
    · exact ⟨rfl, rfl⟩
  · rw [submit_of_large (Nat.not_le.1 hlen)]
    exact ⟨rfl, rfl⟩

/-- WAIT writes the waiters or the trace (R287). -/
theorem addWaiter_frame (c : Channel) (t : Tag) :
    (c.addWaiter t).life = c.life ∧ (c.addWaiter t).writing = c.writing := by
  unfold addWaiter
  split <;> exact ⟨rfl, rfl⟩

end Channel

/-- A closing unit whose slot is free closes (R284). -/
theorem ChannelInv.completeClose_of_closing {own : FrameKind} {c c' : Channel} (h : ChannelInv own c)
    (hl : c.life = .closing) {es : List Event} (hes : c.Evolves none [] es c')
    (hslot : c'.txreg = none) (hhold : c'.hold = c.hold) (hdisposed : c'.disposed = c.disposed) :
    ChannelInv own c'.completeClose := by
  obtain ⟨hopen, hcount⟩ := h.undisposed (by simp [hl])
  exact .of_completeClose hslot (hhold.trans (h.closingDrained hl).1) (hdisposed.trans hopen)
    ((hes.count_portDispose hdisposed).trans hcount)

/-- The forcible close of a transmit side (R283, R284). -/
theorem ChannelInv.abandon_completeClose {own : FrameKind} {c : Channel} (h : ChannelInv own c)
    (hl : c.life ≠ .closed) : ChannelInv own (c.abandon own).completeClose := by
  obtain ⟨hopen, hcount⟩ := h.undisposed hl
  obtain ⟨es, hes⟩ := c.evolves_abandon own
  obtain ⟨abort, draws, prefixes, -, heq⟩ := c.abandon_eq own
  have hdisposed : (c.abandon own).disposed = c.disposed := by rw [heq]
  exact .of_completeClose (by rw [heq]) (by rw [heq]) (hdisposed.trans hopen)
    ((hes.count_portDispose hdisposed).trans hcount)

/-- The slot of an OPEN unit freed by its write's end, and refilled (R270, R271, R275). -/
theorem ChannelInv.freed_refill {own : FrameKind} {c c' : Channel} (h : ChannelInv own c)
    (hl : c.life = .opened) {es : List Event} (hes : c.Evolves none [] es c') (hlife : c'.life = c.life)
    (hslot : c'.txreg = none) (hhold : c'.hold = c.hold) (hwaiters : c'.waiters = c.waiters)
    (hdisposed : c'.disposed = c.disposed) : ChannelInv own (c'.refill own) :=
  h.free_refill hl (hlife.trans hl) hslot hhold hwaiters hdisposed (hes.count_portDispose hdisposed)

/-- The unstarted frame of an OPEN unit cancelled, and the slot refilled (R275). -/
theorem ChannelInv.of_cancelUnstarted {own : FrameKind} {c : Channel} (h : ChannelInv own c)
    (hl : c.life = .opened) (t : Tag) : ChannelInv own (c.cancelUnstarted own t) :=
  h.free_refill hl hl rfl rfl rfl rfl (by simp)

/-- An unstarted frame stands in the slot of an OPEN unit only (R45, R46). -/
theorem ChannelInv.opened_of_unstarted {own : FrameKind} {c : Channel} (h : ChannelInv own c)
    {slot : TxSlot} (hslot : c.txreg = some slot) (hstarted : slot.started = false) :
    c.life = .opened := by
  cases hl : c.life with
  | opened => rfl
  | closing =>
    have hdrained := (h.closingDrained hl).2
    simp [Channel.writing, hslot, hstarted] at hdrained
  | closed =>
    have hempty := (h.closedEmpty hl).1
    simp [hslot] at hempty

/-! ### The invariant of the RTU transceiver (10_state.md R45) -/

/-- Another transmit side in the same lifecycle and write phase. -/
theorem RtuInv.setCh {u : RtuUnit} (h : RtuInv u) {c : Channel} (hc : ChannelInv .rtu c)
    (hl : c.life = u.ch.life) (hw : c.writing = u.ch.writing) : RtuInv (u.setCh c) where
  channel := hc
  config := h.config
  arm15 := h.arm15
  arm35 := h.arm35
  writing := by rw [RtuUnit.setCh_ch, hw]; exact h.writing
  phase := h.phase
  bufCap := h.bufCap
  runBuf := h.runBuf
  noRun := h.noRun
  flagsNok := h.flagsNok
  closingInFlight := by rw [RtuUnit.setCh_ch, hl]; exact h.closingInFlight
  closedIdle := by rw [RtuUnit.setCh_ch, hl]; exact h.closedIdle
  deadlines := h.deadlines

/-- A closed unit (R45, R284). -/
theorem RtuInv.of_completeClose {u : RtuUnit} (hcfg : configValid u.cfg = true)
    (hc : ChannelInv .rtu u.ch.completeClose) : RtuInv u.completeClose where
  channel := hc
  config := hcfg
  arm15 := by simp
  arm35 := by simp
  writing := by simp [Channel.writing_of_free (hc.closedEmpty rfl).1]
  phase := fun _ => rfl
  bufCap := Nat.zero_le _
  runBuf := by simp
  noRun := fun _ => ⟨rfl, rfl, rfl, rfl⟩
  flagsNok := by simp
  closingInFlight := by simp
  closedIdle := fun _ => rfl
  deadlines := by simp

/-- The 3.5 wait started again where it already runs (R173, R179). -/
theorem RtuInv.startT35 {u : RtuUnit} (h : RtuInv u)
    (hst : u.st = .init ∨ (u.st = .emission ∧ u.eph = .settle)) : RtuInv u.startT35 := by
  exact { h with
    arm35 := by simp only [RtuUnit.startT35_arm35, RtuUnit.startT35_st, RtuUnit.startT35_eph]; tauto
    deadlines := fun h15 => by
      have := h.arm15.1 h15
      rcases hst with hst | ⟨hst, -⟩ <;> simp [hst] at this }

/-- A character in IDLE starts a run (R174). -/
theorem RtuInv.startRun {u : RtuUnit} (h : RtuInv u) (hl : u.ch.life ≠ .closed) (hst : u.st = .idle)
    (c : Character) : RtuInv (u.startRun c) where
  channel := h.channel
  config := h.config
  arm15 := by simp [RtuUnit.startRun]
  arm35 := by simp [RtuUnit.startRun]
  writing := by simpa [RtuUnit.startRun, hst] using h.writing
  phase := fun _ => h.phase (by simp [hst])
  bufCap := by simp [RtuUnit.startRun, rtuRxCap]
  runBuf := by simp [RtuUnit.startRun]
  noRun := by simp [RtuUnit.startRun]
  flagsNok := by simp [RtuUnit.startRun, Character.nok]; tauto
  closingInFlight := fun _ => .inl rfl
  closedIdle := fun hc => absurd hc hl
  deadlines := fun _ => by simp [RtuUnit.startRun]; omega

/-- A character in RECEPTION extends the run (R175). -/
theorem RtuInv.extendRun {u : RtuUnit} (h : RtuInv u) (hst : u.st = .reception) (c : Character) :
    RtuInv (u.extendRun c) where
  channel := h.channel
  config := h.config
  arm15 := by simp [RtuUnit.extendRun, hst]
  arm35 := by simp [RtuUnit.extendRun, hst]
  writing := h.writing
  phase := h.phase
  bufCap := by
    have hcap : u.buf.length ≤ 256 := h.bufCap
    by_cases hfull : 256 ≤ u.buf.length
    · simpa [RtuUnit.extendRun, RtuUnit.full_eq, hfull] using h.bufCap
    · simp [RtuUnit.extendRun, RtuUnit.full_eq, hfull, rtuRxCap]
      omega
  runBuf := fun hrun => by
    have hbuf := h.runBuf hrun
    simp only [RtuUnit.extendRun, RtuUnit.startT15_buf, RtuUnit.startT35_buf]
    split <;> simp [hbuf]
  noRun := fun ⟨hno, _⟩ => absurd hst hno
  flagsNok := by
    have hflags := h.flagsNok
    simp only [RtuUnit.extendRun, RtuUnit.startT15_nok, RtuUnit.startT35_nok, RtuUnit.startT15_ovr,
      RtuUnit.startT35_ovr, RtuUnit.startT15_ovf, RtuUnit.startT35_ovf, Character.nok, Bool.or_eq_true]
    tauto
  closingInFlight := h.closingInFlight
  closedIdle := h.closedIdle
  deadlines := fun _ => by simp [RtuUnit.extendRun]; omega

/-- A character in CTRLWAIT spoils the run (R177). -/
theorem RtuInv.spoilRun {u : RtuUnit} (h : RtuInv u) (hst : u.st = .ctrlwait) (c : Character) :
    RtuInv (u.spoilRun c) :=
  { h with
    arm35 := by simp [RtuUnit.spoilRun, hst]
    noRun := fun ⟨_, hno⟩ => absurd hst hno
    flagsNok := fun _ => rfl
    deadlines := fun h15 => by
      have hrec := h.arm15.1 h15
      simp [hst] at hrec }

/-- A character, in each state of the receiver (R173 to R179). -/
theorem RtuInv.receive {u : RtuUnit} (h : RtuInv u) (hl : u.ch.life ≠ .closed) (c : Character) :
    RtuInv (u.receive c) := by
  unfold RtuUnit.receive
  cases hst : u.st with
  | init => exact h.startT35 (.inl hst)
  | idle => exact h.startRun hl hst c
  | reception => exact h.extendRun hst c
  | ctrlwait => exact h.spoilRun hst c
  | emission =>
    cases hp : u.eph with
    | settle => exact h.startT35 (.inr ⟨hst, hp⟩)
    | tx => exact h

/-- The acknowledgement of an overrun (R172). -/
theorem RtuInv.ackOverrun {u : RtuUnit} (h : RtuInv u) (c : Character) : RtuInv (u.ackOverrun c) := by
  unfold RtuUnit.ackOverrun
  split
  · exact h.setCh (h.channel.emit (by simp)) rfl rfl
  · exact h

/-- The 1.5 expiry ends the main bytes (R180). -/
theorem RtuInv.endMain {u : RtuUnit} (h : RtuInv u) (h15 : u.arm15 = true) :
    RtuInv { u with arm15 := false, st := .ctrlwait } where
  channel := h.channel
  config := h.config
  arm15 := by simp
  arm35 := by simpa using h.arm35.2 (.inr (.inl (h.arm15.1 h15)))
  writing := by simpa [h.arm15.1 h15] using h.writing
  phase := fun _ => h.phase (by simp [h.arm15.1 h15])
  bufCap := h.bufCap
  runBuf := fun _ => h.runBuf (.inl (h.arm15.1 h15))
  noRun := by simp
  flagsNok := h.flagsNok
  closingInFlight := fun _ => .inr (.inl rfl)
  closedIdle := fun hc => by
    have hidle := h.closedIdle hc
    simp [h.arm15.1 h15] at hidle
  deadlines := by simp

/-- The receiver gone to IDLE outside a close, with nothing gathered and no timer armed. -/
theorem RtuInv.of_idle {u u' : RtuUnit} (h : RtuInv u) (hl : u'.ch.life ≠ .closing)
    (hc : ChannelInv .rtu u'.ch) (hw : u'.ch.writing = false) (hcfg : u'.cfg = u.cfg)
    (hst : u'.st = .idle) (hp : u'.eph = .tx) (h15 : u'.arm15 = false) (h35 : u'.arm35 = false)
    (hrun : u'.buf = [] ∧ u'.nok = false ∧ u'.ovr = false ∧ u'.ovf = false) : RtuInv u' where
  channel := hc
  config := hcfg ▸ h.config
  arm15 := by simp [h15, hst]
  arm35 := by simp [h35, hst]
  writing := by simp [hw, hst]
  phase := fun _ => hp
  bufCap := by simp [hrun.1]
  runBuf := by simp [hst]
  noRun := fun _ => hrun
  flagsNok := by simp [hrun.2.2]
  closingInFlight := fun hc => absurd hc hl
  closedIdle := fun _ => hst
  deadlines := by simp [h15]

/-- The end of a run, while OPEN and while CLOSING (R183, R185). -/
theorem RtuInv.endRun {u : RtuUnit} (h : RtuInv u) (hl : u.ch.life ≠ .closed) (hst : u.st = .ctrlwait)
    (h15 : u.arm15 = false) (p : Params) : RtuInv (({ u with arm35 := false } : RtuUnit).endRun p) := by
  have hw : u.ch.writing = false := by
    rw [← Bool.not_eq_true, h.writing]
    simp [hst]
  let ended : RtuUnit := { u with arm35 := false }
  cases hlife : u.ch.life with
  | closed => exact absurd hlife hl
  | closing =>
    rw [RtuUnit.endRun_of_closing (u := ended) hlife]
    have hslot : u.ch.txreg = none := by
      simpa [hw] using (h.channel.closingDrained hlife).2
    exact .of_completeClose h.config
      (h.channel.completeClose_of_closing hlife (.refl u.ch) hslot rfl rfl)
  | opened =>
    rw [RtuUnit.endRun_of_opened (u := ended) hlife]
    refine h.of_idle (by simp [ended, hlife]) ?_ ?_ rfl rfl (h.phase (by simp [hst])) h15 rfl
      ⟨rfl, rfl, rfl, rfl⟩
    · dsimp only [ended]
      split
      · exact h.channel.emit (by simp)
      · simpa using h.channel
    · exact hw

/-- The 3.5 expiry, in each state of the receiver (R182 to R184). -/
theorem RtuInv.silence {u : RtuUnit} (h : RtuInv u) (hl : u.ch.life ≠ .closed) (h35 : u.arm35 = true)
    (h15 : u.arm15 = false) (p : Params) : RtuInv (u.silence p) := by
  cases hst : u.st with
  | ctrlwait =>
    rw [RtuUnit.silence_of_ctrlwait hst]
    exact h.endRun hl hst h15 p
  | init =>
    have hw := h.writing
    have hclosing := h.closingInFlight
    simp only [hst, reduceCtorEq, false_and, iff_false, Bool.not_eq_true, or_self, imp_false]
      at hw hclosing
    rw [RtuUnit.silence_of_init hst]
    exact h.of_idle hclosing h.channel hw rfl rfl (h.phase (by simp [hst])) h15 rfl
      (h.noRun (by simp [hst]))
  | emission =>
    have hp : u.eph = .settle := by simpa [hst] using h.arm35.1 h35
    have hw := h.writing
    have hclosing := h.closingInFlight
    simp only [hst, hp, reduceCtorEq, and_false, iff_false, Bool.not_eq_true, or_self, imp_false]
      at hw hclosing
    rw [RtuUnit.silence_of_emission hst]
    exact h.of_idle hclosing h.channel hw rfl rfl rfl h15 rfl (h.noRun (by simp [hst]))
  | idle | reception =>
    have hno := h.arm35.1 h35
    have hoff := mt h.arm15.2
    simp [hst, h15] at hno hoff

/-- A write begins (R178). -/
theorem RtuInv.start {u : RtuUnit} (h : RtuInv u) {slot : TxSlot} (hready : u.ready = some slot)
    (raw : List Byte) :
    RtuInv { u with ch := u.ch.startWrite slot raw, st := .emission, eph := .tx } := by
  obtain ⟨hl, hst, hslot, -⟩ := (RtuUnit.ready_eq_some_iff _ _).1 hready
  have h15 := h.arm15
  have h35 := h.arm35
  simp only [hst, reduceCtorEq, false_and, or_self, iff_false] at h15 h35
  exact {
    channel := h.channel.of_startWrite hslot hl raw
    config := h.config
    arm15 := by simpa using h15
    arm35 := by simpa using h35
    writing := by simp [Channel.writing]
    phase := by simp
    bufCap := h.bufCap
    runBuf := by simp
    noRun := fun _ => h.noRun (by simp [hst])
    flagsNok := h.flagsNok
    closingInFlight := by simp [hl]
    closedIdle := by simp [hl]
    deadlines := fun hon => absurd hon h15 }

/-- END_WRITE, when a write in flight has left the slot (R270). -/
theorem RtuInv.endWrite {u : RtuUnit} (h : RtuInv u) (hl : u.ch.life ≠ .closed)
    (hw : u.ch.writing = true) {c : Channel} {es : List Event} (hes : u.ch.Evolves none [] es c)
    (hlife : c.life = u.ch.life) (hslot : c.txreg = none) (hhold : c.hold = u.ch.hold)
    (hwaiters : c.waiters = u.ch.waiters) (hdisposed : c.disposed = u.ch.disposed) :
    RtuInv (u.setCh c).endWrite := by
  obtain ⟨hst, hp⟩ := h.writing.1 hw
  cases hopen : u.ch.life with
  | closed => exact absurd hopen hl
  | closing =>
    rw [RtuUnit.endWrite_of_closing _ (hlife.trans hopen)]
    exact .of_completeClose h.config
      (h.channel.completeClose_of_closing hopen hes hslot hhold hdisposed)
  | opened =>
    rw [RtuUnit.endWrite_of_opened _ (hlife.trans hopen)]
    have h15 := h.arm15
    simp only [hst, reduceCtorEq, iff_false] at h15
    exact {
      channel := h.channel.freed_refill hopen hes hlife hslot hhold hwaiters hdisposed
      config := h.config
      arm15 := by simpa [hst] using h15
      arm35 := by simp [hst]
      writing := by simp [Channel.writing_of_free hslot]
      phase := by simp [hst]
      bufCap := h.bufCap
      runBuf := h.runBuf
      noRun := h.noRun
      flagsNok := h.flagsNok
      closingInFlight := by simp [hlife, hopen]
      closedIdle := by simp [hlife, hopen]
      deadlines := fun hon => absurd hon h15 }

/-- A cancellation, whatever the tag names (R275). -/
theorem RtuInv.cancel {u : RtuUnit} (h : RtuInv u) (hl : u.ch.life ≠ .closed) (t : Tag) :
    RtuInv (u.cancel t) := by
  unfold RtuUnit.cancel
  cases htarget : u.ch.cancelTarget t with
  | held =>
    have hheld := Channel.holds_iff.2 (Channel.cancelTarget_eq_held_iff.1 htarget)
    exact h.setCh (h.channel.of_cancelHeld hheld) rfl rfl
  | unstarted slot =>
    obtain ⟨-, hslot, -, hstarted⟩ := Channel.cancelTarget_eq_unstarted_iff.1 htarget
    refine h.setCh (h.channel.of_cancelUnstarted (h.channel.opened_of_unstarted hslot hstarted) t) ?_ ?_
    · simp [Channel.cancelUnstarted]
    · rw [Channel.cancelUnstarted, Channel.refill_writing]
      simp [Channel.writing, hslot, hstarted]
  | inFlight slot =>
    obtain ⟨-, hslot, -, hstarted⟩ := Channel.cancelTarget_eq_inFlight_iff.1 htarget
    exact h.endWrite hl (by simp [Channel.writing, hslot, hstarted])
      (Channel.evolves_abortWrite hslot .rtu _) rfl rfl rfl rfl rfl
  | waiter => exact h.setCh h.channel.of_cancelWaiter rfl rfl
  | nothing => exact h

/-- A graceful close (R280, R282). -/
theorem RtuInv.beginClose {u : RtuUnit} (h : RtuInv u) (hl : u.ch.life = .opened) :
    RtuInv u.beginClose := by
  have hc := h.channel.of_beginClose hl
  have hw : ({ u.ch with life := .closing }.failPending).writing = u.ch.writing := by
    rw [Channel.failPending_eq]
    rcases hslot : u.ch.txreg with _ | ⟨t, f, _ | _⟩ <;>
      simp [Channel.writing, hslot, Option.filter_some]
  unfold RtuUnit.beginClose
  dsimp only
  split
  · rename_i hidle
    have hoff : u.ch.writing = false := by
      rw [← Bool.not_eq_true, h.writing]
      rintro ⟨hst, hp⟩
      simp [RtuUnit.nothingInFlight, hst, hp] at hidle
    have hslot : ({ u.ch with life := .closing }.failPending).txreg = none := by
      simpa [hw, hoff] using (hc.closingDrained rfl).2
    exact .of_completeClose h.config (hc.completeClose_of_closing rfl (.refl _) hslot rfl rfl)
  · rename_i hbusy
    have hbusy := u.not_nothingInFlight_iff.1 hbusy
    exact {
      channel := hc
      config := h.config
      arm15 := h.arm15
      arm35 := h.arm35
      writing := by rw [RtuUnit.setCh_ch, hw]; exact h.writing
      phase := h.phase
      bufCap := h.bufCap
      runBuf := h.runBuf
      noRun := h.noRun
      flagsNok := h.flagsNok
      closingInFlight := fun _ => hbusy
      closedIdle := by simp
      deadlines := h.deadlines }

/-- Every operation keeps the invariant of the RTU transceiver. -/
theorem RtuStep.inv {p : Params} {l : Layer} {u u' : RtuUnit} {i : Instr} (hstep : RtuStep p l u i u')
    (h : RtuInv u) : RtuInv u' := by
  cases hstep with
  | inert => exact h
  | receive c hl => exact (h.ackOverrun c).receive (by rw [RtuUnit.ackOverrun_eq]; exact hl) c
  | endMain heff => exact h.endMain ((RtuUnit.t15Effective_iff _ _).1 heff).2.1
  | silence heff =>
    obtain ⟨hl, h35, h15, -⟩ := (RtuUnit.t35Effective_iff _ _).1 heff
    exact h.silence hl h35 h15 p
  | submit ht k a fc data =>
    obtain ⟨hl, hw⟩ := u.ch.submit_frame .rtu _ k a fc data
    exact h.setCh (h.channel.of_submit ht k a fc data) hl hw
  | wait ht =>
    obtain ⟨hl, hw⟩ := u.ch.addWaiter_frame _
    exact h.setCh (h.channel.of_addWaiter ht) hl hw
  | start hready => exact h.start hready _
  | finish hslot failed =>
    obtain ⟨hl, hslot, hstarted⟩ := (Channel.inFlight_eq_some_iff _ _).1 hslot
    exact h.endWrite hl (by simp [Channel.writing, hslot, hstarted])
      (Channel.evolves_finishWrite hslot failed) rfl rfl rfl rfl rfl
  | cancel t hl => exact h.cancel hl t
  | report i hi v => exact h.setCh (h.channel.emit (by simp)) rfl rfl
  | zero c => cases c <;> exact { h with }
  | terminate hl => exact .of_completeClose h.config (h.channel.abandon_completeClose hl)
  | beginClose hl => exact h.beginClose hl

end Sys2Proof.Machine

/-! ### The invariant of the ASCII transceiver (10_state.md R46) -/

namespace Sys2Proof.Machine

section
variable {p : Params} {u : AscUnit}

/-- Another transmit side in the same lifecycle, that still writes when it has to. -/
theorem AscInv.setCh (h : AscInv p u) {c : Channel} (hc : ChannelInv .ascii c)
    (hl : c.life = u.ch.life) (hw : u.ch.life = .closing → c.writing = u.ch.writing) :
    AscInv p (u.setCh c) :=
  { h with
    channel := hc
    closingWriting := fun hclosing => by
      have hlife := hl.symm.trans hclosing
      exact ⟨(hw hlife).trans (h.closingWriting hlife).1, (h.closingWriting hlife).2⟩
    closedIdle := fun hclosed => h.closedIdle (hl.symm.trans hclosed) }

/-- The receptor cleared, over any transmit side that writes when it is CLOSING. -/
theorem AscInv.of_idle {u' : AscUnit} (h : AscInv p u) (hc : ChannelInv .ascii u'.ch)
    (hcfg : u'.cfg = u.cfg) (hast : u'.ast = .idle) (habuf : u'.abuf = []) (hanok : u'.anok = false)
    (hw : u'.ch.life = .closing → u'.ch.writing = true) : AscInv p u' where
  channel := hc
  config := hcfg ▸ h.config
  idleClear := fun _ => ⟨habuf, hanok⟩
  startsWithColon := fun hne => absurd hast hne
  eofAfterCr := by simp [hast]
  bufCap := by simp [habuf]
  closingWriting := fun hclosing => ⟨hw hclosing, hast⟩
  closedIdle := fun _ => hast

/-- A closed unit (R46, R284). -/
theorem AscInv.completeClose {u' : AscUnit} (h : AscInv p u) (hcfg : u'.cfg = u.cfg)
    (hc : ChannelInv .ascii u'.ch.completeClose) : AscInv p u'.completeClose :=
  h.of_idle hc hcfg rfl rfl rfl (by simp)

/-- The receptor of an OPEN unit gathering a frame. -/
theorem AscInv.of_gathering {u' : AscUnit} (h : AscInv p u) (hl : u.ch.life = .opened)
    (hch : u'.ch = u.ch) (hcfg : u'.cfg = u.cfg) (hast : u'.ast ≠ .idle)
    (hcolon : u'.abuf.head? = some colon)
    (hcr : u'.ast = .eof → u'.abuf.getLast? = some carriageReturn ∨ u'.anok = true)
    (hcap : u'.abuf.length ≤ p.asciiRxCap) : AscInv p u' where
  channel := hch ▸ h.channel
  config := hcfg ▸ h.config
  idleClear := fun hidle => absurd hidle hast
  startsWithColon := fun _ => hcolon
  eofAfterCr := hcr
  bufCap := hcap
  closingWriting := by simp [hch, hl]
  closedIdle := by simp [hch, hl]

/-- A ':' starts a frame (R223). -/
theorem AscInv.restart (h : AscInv p u) (hl : u.ch.life = .opened) (hcap : 513 ≤ p.asciiRxCap)
    (valid : Bool) : AscInv p (u.restart valid) :=
  h.of_gathering hl rfl rfl (by simp [AscUnit.restart]) rfl (by simp [AscUnit.restart])
    (by simp [AscUnit.restart]; omega)

/-- A character appended, or dropped at a full buffer, before the state that follows it: APPEND, or EOF
where it is a CR (R221, R224 to R227). -/
theorem AscInv.app (h : AscInv p u) (hl : u.ch.life = .opened) (hast : u.ast ≠ .idle) (b : Byte)
    (valid : Bool) (next : AscState) (hnext : next = .append ∨ next = .eof ∧ b = carriageReturn) :
    AscInv p { u.app p b valid with ast := next } := by
  have hcolon := h.startsWithColon hast
  have hcap := h.bufCap
  refine h.of_gathering hl rfl rfl ?_ ?_ ?_ ?_
  · rcases hnext with rfl | ⟨rfl, -⟩ <;> simp
  · dsimp only [AscUnit.app]
    split
    · rw [List.head?_append, hcolon]; rfl
    · exact hcolon
  · rintro rfl
    obtain rfl : b = carriageReturn := by simpa using hnext
    dsimp only [AscUnit.app]
    by_cases hfits : u.abuf.length < p.asciiRxCap
    · exact .inl (by simp [hfits])
    · exact .inr (by simp [hfits])
  · dsimp only [AscUnit.app]
    split
    · simp; omega
    · exact hcap

/-- The LF that ends a frame clears the receptor (R228, R232). -/
theorem AscInv.deliver (h : AscInv p u) (hl : u.ch.life = .opened) (valid : Bool) :
    AscInv p (u.deliver p valid) := by
  rw [AscUnit.deliver_of_opened hl]
  refine h.of_idle ?_ rfl rfl rfl rfl (by simp [hl])
  cases asciiDecode p (u.app p lineFeed valid).abuf (u.app p lineFeed valid).anok with
  | error => simpa [surfaced] using h.channel
  | ok f => exact h.channel.emit (by simp)

/-- A character, in each state of the receptor (R223 to R230). -/
theorem AscInv.receive (h : AscInv p u) (hl : u.ch.life = .opened) (hcap : 513 ≤ p.asciiRxCap)
    (b : Byte) (valid : Bool) : AscInv p (u.receive p b valid) := by
  by_cases hcolon : b = colon
  · rw [hcolon, AscUnit.receive_colon]
    exact h.restart hl hcap valid
  cases hast : u.ast with
  | idle =>
    rw [AscUnit.receive_of_idle hast p hcolon]
    exact h
  | append =>
    have happ := h.app hl (by simp [hast]) b valid
    by_cases hcr : b = carriageReturn
    · subst hcr
      rw [AscUnit.receive_carriageReturn_of_append hast]
      exact happ .eof (.inr ⟨rfl, rfl⟩)
    · rw [AscUnit.receive_of_append hast p hcolon hcr]
      simpa only [AscUnit.app, hast] using happ .append (.inl rfl)
  | eof =>
    have happ := h.app hl (by simp [hast]) b valid
    by_cases hlf : b = lineFeed
    · subst hlf
      rw [AscUnit.receive_lineFeed_of_eof hast]
      exact h.deliver hl valid
    by_cases hcr : b = carriageReturn
    · subst hcr
      rw [AscUnit.receive_carriageReturn_of_eof hast]
      simpa only [AscUnit.app, hast] using happ .eof (.inr ⟨rfl, rfl⟩)
    · rw [AscUnit.receive_other_of_eof hast p hcolon hcr hlf]
      exact happ .append (.inl rfl)

/-- END_WRITE, when a write in flight has left the slot (R271). -/
theorem AscInv.endWrite (h : AscInv p u) (hl : u.ch.life ≠ .closed) {c : Channel} {es : List Event}
    (hes : u.ch.Evolves none [] es c) (hlife : c.life = u.ch.life) (hslot : c.txreg = none)
    (hhold : c.hold = u.ch.hold) (hwaiters : c.waiters = u.ch.waiters)
    (hdisposed : c.disposed = u.ch.disposed) : AscInv p (u.setCh c).endWrite := by
  cases hopen : u.ch.life with
  | closed => exact absurd hopen hl
  | closing =>
    rw [AscUnit.endWrite_of_closing _ (hlife.trans hopen)]
    exact h.completeClose rfl
      (h.channel.completeClose_of_closing hopen hes hslot hhold hdisposed)
  | opened =>
    rw [AscUnit.endWrite_of_opened _ (hlife.trans hopen)]
    exact h.setCh (h.channel.freed_refill hopen hes hlife hslot hhold hwaiters hdisposed)
      (by simp [hlife]) (by simp [hopen])

/-- A cancellation, whatever the tag names (R275). -/
theorem AscInv.cancel (h : AscInv p u) (hl : u.ch.life ≠ .closed) (t : Tag) : AscInv p (u.cancel t) := by
  unfold AscUnit.cancel
  cases htarget : u.ch.cancelTarget t with
  | held =>
    have hheld := Channel.holds_iff.2 (Channel.cancelTarget_eq_held_iff.1 htarget)
    exact h.setCh (h.channel.of_cancelHeld hheld) rfl fun _ => rfl
  | unstarted slot =>
    obtain ⟨-, hslot, -, hstarted⟩ := Channel.cancelTarget_eq_unstarted_iff.1 htarget
    have hopen := h.channel.opened_of_unstarted hslot hstarted
    exact h.setCh (h.channel.of_cancelUnstarted hopen t) (by simp [Channel.cancelUnstarted])
      (by simp [hopen])
  | inFlight slot =>
    obtain ⟨-, hslot, -, -⟩ := Channel.cancelTarget_eq_inFlight_iff.1 htarget
    exact h.endWrite hl (Channel.evolves_abortWrite hslot .ascii _) rfl rfl rfl rfl rfl
  | waiter => exact h.setCh h.channel.of_cancelWaiter rfl fun _ => rfl
  | nothing => exact h

/-- A graceful close (R281). -/
theorem AscInv.beginClose (h : AscInv p u) (hl : u.ch.life = .opened) : AscInv p u.beginClose := by
  have hc := h.channel.of_beginClose hl
  unfold AscUnit.beginClose
  dsimp only
  split
  · rename_i hfree
    exact h.completeClose rfl
      (hc.completeClose_of_closing rfl (.refl _) (Option.isNone_iff_eq_none.1 hfree) rfl rfl)
  · rename_i hbusy
    exact h.of_idle hc rfl rfl rfl rfl fun _ =>
      (hc.closingDrained rfl).2.resolve_left fun hfree => hbusy (by rw [hfree]; rfl)

end

/-- Every operation keeps the invariant of the ASCII transceiver. -/
theorem AscStep.inv {p : Params} {u u' : AscUnit} {i : Instr} (hstep : AscStep p u i u')
    (hcap : 513 ≤ p.asciiRxCap) (h : AscInv p u) : AscInv p u' := by
  cases hstep with
  | inert => exact h
  | receive b valid hl => exact h.receive hl hcap b valid
  | submit ht k a fc data =>
    obtain ⟨hl, hw⟩ := u.ch.submit_frame .ascii _ k a fc data
    exact h.setCh (h.channel.of_submit ht k a fc data) hl fun _ => hw
  | wait ht =>
    obtain ⟨hl, hw⟩ := u.ch.addWaiter_frame _
    exact h.setCh (h.channel.of_addWaiter ht) hl fun _ => hw
  | start hready raw =>
    obtain ⟨hl, hslot, -⟩ := (AscUnit.ready_eq_some_iff _ _).1 hready
    exact h.setCh (h.channel.of_startWrite hslot hl raw) rfl (by simp [hl])
  | finish hslot failed =>
    obtain ⟨hl, hslot, -⟩ := (Channel.inFlight_eq_some_iff _ _).1 hslot
    exact h.endWrite hl (Channel.evolves_finishWrite hslot failed) rfl rfl rfl rfl rfl
  | cancel t hl => exact h.cancel hl t
  | report i hi v => exact h.setCh (h.channel.emit (by simp)) rfl fun _ => rfl
  | terminate hl => exact h.completeClose rfl (h.channel.abandon_completeClose hl)
  | beginClose hl => exact h.beginClose hl

/-! ### Timer liveness (41_rtu_receiver.md R192) -/

/-- The awaited expiry can still be delivered in its window (R192). -/
def RtuUnit.Live (u : RtuUnit) (slack : Nat) : Prop :=
  ∀ d ∈ u.awaitedDeadline, u.now ≤ d + slack

section
variable {u : RtuUnit} {slack : Nat}

/-- A unit with no timer armed awaits no expiry. -/
theorem RtuUnit.live_of_disarmed (h15 : u.arm15 = false) (h35 : u.arm35 = false) : u.Live slack := by
  simp [RtuUnit.Live, RtuUnit.awaitedDeadline, h15, h35]

theorem RtuUnit.live_startT15 : u.startT15.Live slack := by
  simp [RtuUnit.Live, RtuUnit.awaitedDeadline]
  omega

/-- A 3.5 wait that starts now is live, and so is the 1.5 wait that it stands behind. -/
theorem RtuUnit.Live.startT35 (h : u.Live slack) : u.startT35.Live slack := by
  cases h15 : u.arm15 with
  | true => simpa [RtuUnit.Live, RtuUnit.awaitedDeadline, h15] using h
  | false =>
    simp [RtuUnit.Live, RtuUnit.awaitedDeadline, h15]
    omega

/-- The 1.5 expiry in its window comes before the 3.5 deadline of its run (R171, R193). -/
theorem RtuUnit.Live.endMain (h : u.Live slack) (hinv : RtuInv u) (h15 : u.arm15 = true) :
    RtuUnit.Live { u with arm15 := false, st := .ctrlwait } slack := by
  have hdeadlines := hinv.deadlines h15
  have hdue : u.now ≤ u.d15 + slack := h u.d15 (by simp [RtuUnit.awaitedDeadline, h15])
  have hle : t15 u.cfg ≤ t35 u.cfg := Nat.div_le_div_right (by omega)
  have h35 : u.arm35 = true := hinv.arm35.2 (.inr (.inl (hinv.arm15.1 h15)))
  simp [RtuUnit.Live, RtuUnit.awaitedDeadline, h35]
  omega

theorem RtuUnit.Live.receive (h : u.Live slack) (c : Character) : (u.receive c).Live slack := by
  unfold RtuUnit.receive
  cases u.st with
  | init => exact h.startT35
  | idle => exact RtuUnit.live_startT15.startT35
  | reception => exact RtuUnit.live_startT15.startT35
  | ctrlwait => exact RtuUnit.Live.startT35 (u := { u with nok := true, ovr := u.ovr || c.overrun }) h
  | emission =>
    cases u.eph with
    | settle => exact h.startT35
    | tx => exact h

theorem RtuUnit.Live.endWrite (h : u.Live slack) (c : Channel) : (u.setCh c).endWrite.Live slack := by
  unfold RtuUnit.endWrite
  split
  · exact RtuUnit.live_of_disarmed rfl rfl
  · exact RtuUnit.Live.startT35 (u := { u.setCh c with eph := .settle }) h

theorem RtuUnit.Live.cancel (h : u.Live slack) (t : Tag) : (u.cancel t).Live slack := by
  unfold RtuUnit.cancel
  cases u.ch.cancelTarget t with
  | inFlight slot => exact h.endWrite _
  | held | unstarted slot | waiter | nothing => exact h

/-- The 3.5 expiry leaves no timer armed (R181). -/
theorem RtuUnit.live_silence (hl : u.ch.life ≠ .closed) (h15 : u.arm15 = false) (p : Params) :
    (u.silence p).Live slack := by
  cases hst : u.st with
  | ctrlwait =>
    rw [RtuUnit.silence_of_ctrlwait hst]
    cases hlife : u.ch.life with
    | closed => exact absurd hlife hl
    | closing =>
      rw [RtuUnit.endRun_of_closing (by exact hlife)]
      exact RtuUnit.live_of_disarmed rfl rfl
    | opened =>
      rw [RtuUnit.endRun_of_opened (by exact hlife)]
      exact RtuUnit.live_of_disarmed h15 rfl
  | init | idle | emission | reception =>
    simp only [RtuUnit.silence, hst]
    exact RtuUnit.live_of_disarmed h15 rfl

end

/-- Every operation leaves the awaited expiry to come. -/
theorem RtuStep.live {p : Params} {l : Layer} {u u' : RtuUnit} {i : Instr} (hstep : RtuStep p l u i u')
    (hinv : RtuInv u) {slack : Nat} (h : u.Live slack) : u'.Live slack := by
  cases hstep with
  | receive c =>
    have hack : (u.ackOverrun c).Live slack := by rw [RtuUnit.ackOverrun_eq]; exact h
    exact hack.receive c
  | endMain heff => exact h.endMain hinv ((RtuUnit.t15Effective_iff _ _).1 heff).2.1
  | silence heff =>
    obtain ⟨hl, -, h15, -⟩ := (RtuUnit.t35Effective_iff _ _).1 heff
    exact RtuUnit.live_silence hl h15 p
  | finish hslot failed => exact h.endWrite _
  | cancel t => exact h.cancel t
  | zero c => cases c <;> exact h
  | terminate => exact RtuUnit.live_of_disarmed rfl rfl
  | beginClose =>
    unfold RtuUnit.beginClose
    dsimp only
    split
    · exact RtuUnit.live_of_disarmed rfl rfl
    · exact h
  | _ => exact h

/-! ### The invariant of the machine -/

/-- An operation that completes keeps the invariant. -/
theorem Inv.exec {s t : State} {i : Instr} (h : Inv s) (hexec : exec i s = .next t) : Inv t := by
  obtain ⟨-, -, -, -, -, hparams, hlayer⟩ := exec_frame hexec
  have hstep := rtuStep_of_exec hexec
  have hcap : 513 ≤ s.params.asciiRxCap := by
    have hvalid := h.params
    simp only [paramsValid, Bool.and_eq_true, decide_eq_true_eq] at hvalid
    exact hvalid.1
  exact {
    rtu := hstep.inv h.rtu
    asc := hparams ▸ (ascStep_of_exec hexec).inv hcap h.asc
    params := by rw [hstep.frame.1, hparams]; exact h.params
    timerLive := fun hl => by
      rw [hparams]
      exact hstep.live h.rtu (h.timerLive (hlayer.symm.trans hl)) }

/-- The words of an operation consumed and the clock at its timestamp: the invariant holds, for the check of
the stream found the awaited expiry not overdue (R190, R192). -/
theorem Inv.clocked {s : State} (h : Inv s) {i : Instr} {τ : Nat} (n : Nat)
    (hrefusal : streamRefusal i τ s = none) : Inv ((s.keepLast n).clocked i τ) := by
  by_cases hunit : unitOf i = .rtu
  · rw [State.clocked, if_pos hunit]
    exact {
      rtu := { h.rtu with }
      asc := h.asc
      params := h.params
      timerLive := fun hl d hd => by
        have hover := overdue_eq_false_of_streamRefusal (s := s) hl hunit hrefusal
        have hawait : s.rtu.awaitedDeadline = some d := hd
        simpa [RtuUnit.overdue, hawait] using hover }
  · rw [State.clocked, if_neg hunit]
    exact { h with }

/-- Settles O32: the step takes an operation that the stream's check lets through, and every operation keeps
the invariant of each unit and its timers live. -/
theorem stepKeepsTheInvariant : Obligations.StepKeepsTheInvariant := by
  intro s t h hstep
  rcases step_next_cases hstep with rfl | ⟨i, τ, n, hrefusal, hexec⟩
  · exact h
  · exact (h.clocked n hrefusal).exec hexec

end Sys2Proof.Machine
